-- ==== Sys2Proof/Word.lean ====
section
/-! DEFINITION. The word types of the Tildra 3208: the byte, the 32-bit port and memory word, the station
number, and the condition of the line in one bit time. -/

namespace Sys2Proof

/-- One byte of local memory or of a payload. -/
abbrev Byte := BitVec 8

/-- One 32-bit word of the Local Port or of the start block. -/
abbrev Word := BitVec 32

/-- A station number, 0 to 31 (00_scope.md, Terms). -/
abbrev Station := BitVec 5

/-- The five conditions of the line in one bit time (R121). -/
inductive LineCond where
  | undriven
  | bit1
  | bit0
  | startMark
  | abortMark
  deriving DecidableEq, Repr, Inhabited

end Sys2Proof
end

