-- ==== Sys2Proof/Config.lean ====
section
/-! DEFINITION. What the part fixes once (sizes, limits, the first contents of memory) and the free
values the manual leaves open. -/

namespace Sys2Proof.Config

/-- Local addresses run from 0 to 16,777,215 (00_scope.md, Conventions). -/
def memorySize : Nat := 16777216

/-- What a byte of local memory that nothing has written reads as. DESIGN CHOICE, unsafe: the spec gives
local memory no first contents (log 4). -/
def memoryFill : Byte := 0

/-- The first contents of a frame buffer's bytes. DESIGN CHOICE (log 22). -/
def bufferFill : Byte := 0

/-- The start block is 44 bytes, eleven words (R160, R186). -/
def startBlockBytes : Nat := 44

/-- The grant wait limit of the start read, in µs (R160). -/
def startGrantWait : Nat := 255

/-- The Notice Queue's room (R168). -/
def noticeRoom : Nat := 32

/-- A SIGNAL is accepted with at most this many records waiting (R33). -/
def signalNoticeLimit : Nat := 30

/-- A mailbox slot: 8 header bytes and 64 data bytes (R49). -/
def mailboxSlotBytes : Nat := 72

/-- The data bytes of a mailbox slot and the longest payload (R49). -/
def mailboxDataBytes : Nat := 64

/-- The consecutive clash that silences the station (R141). -/
def silentClashes : Nat := 16

/-- The requester side's share of the Frame Buffer Pool (R147). -/
def requesterBuffers : Nat := 16

/-- The gap after a frame's end, in bit times (R127). -/
def gapBitTimes : Nat := 8

/-- Consecutive undriven bit times that end joining by QUIET (R130). -/
def joinBitTimes : Nat := 512

/-- A FREE VALUE with no body: the byte that local memory holds at address `a` after the `n`-th full
reset that cut a write cycle there (R161: "the bytes of the cut cycle are left to the board's memory, which
may or may not have stored them, and software treats them as unknown"; log 7). -/
opaque cutByte (n a : Nat) : Byte

/-- A FREE VALUE with no body: what the line carries when one station drives a start mark and another drives
`other`, a bit 0 or an abort mark. R121's table says how a start mark combines with an undriven bit time and with
a bit 1, and not with these two (log 32). -/
opaque startMarkWith (other : LineCond) : LineCond

end Sys2Proof.Config
end

