-- ==== Sys2Proof/Syntax.lean ====
section
/-! DEFINITION. The commands of the block, one constructor for each row of the table of operations and
events, and the frames of the shared line that some of them carry. -/

namespace Sys2Proof

/-- The kinds of a request (R23, R97). -/
inductive RequestKind where
  | put
  | get
  | signal
  deriving DecidableEq, Repr

/-- A tag: the requester's entry index and that entry's epoch (R98, R193). -/
structure Tag where
  entry : BitVec 4
  epoch : BitVec 12
  deriving DecidableEq, Repr

/-- A claim word: the class (1 for a request, 0 for a response), the rank and the sender (R122, R193). -/
structure Claim where
  request : Bool
  rank : BitVec 5
  sender : Station
  deriving DecidableEq, Repr

/-- The fields of a frame, by kind, in the order of R122 with the widths of R193. -/
inductive FrameBody where
  | put (dest : Station) (incarnation : Byte) (tag : Tag) (window : BitVec 5) (offset : BitVec 24)
      (length : BitVec 7) (payload : List Byte)
  | get (dest : Station) (incarnation : Byte) (tag : Tag) (window : BitVec 5) (offset : BitVec 24)
      (length : BitVec 7)
  | signal (dest : Station) (incarnation : Byte) (tag : Tag) (value : Word)
  | data (dest : Station) (tag : Tag) (length : BitVec 7) (payload : List Byte)
  | done (dest : Station) (tag : Tag) (outcome : BitVec 3)
  deriving DecidableEq, Repr

/-- A frame from its claim word through its last field (R122). -/
structure Frame where
  claim : Claim
  body : FrameBody
  deriving DecidableEq, Repr

/-- The commands: one constructor for each row of the table, in the table's order. The six argument
words of a command written to CMD are state (R179), so those commands carry no argument. -/
inductive Instr where
  /-- WIN_OPEN (R6): the code 1 written to CMD. -/
  | winOpen
  /-- WIN_PARK (R8): the code 2 written to CMD. -/
  | winPark
  /-- WIN_UNPARK (R9): the code 3 written to CMD. -/
  | winUnpark
  /-- WIN_CLOSE (R10): the code 4 written to CMD. -/
  | winClose
  /-- WIN_GRANTS (R12): the code 5 written to CMD. -/
  | winGrants
  /-- WIN_QUERY (R13): the code 6 written to CMD. -/
  | winQuery
  /-- MBOX_CONSUME (R56): the code 7 written to CMD. -/
  | mboxConsume
  /-- CH_LOAD (R69): the code 16 written to CMD. -/
  | chLoad
  /-- CH_START (R70): the code 17 written to CMD. -/
  | chStart
  /-- CH_ABORT (R92): the code 18 written to CMD. -/
  | chAbort
  /-- CH_CLEAR (R71): the code 19 written to CMD. -/
  | chClear
  /-- CH_QUERY (R72): the code 20 written to CMD. -/
  | chQuery
  /-- LINE_RESTART (R143): the code 32 written to CMD. -/
  | lineRestart
  /-- STATION_RESET (R183): the code 48 written to CMD, with the strap levels at that moment (log 9). -/
  | stationReset (straps : Station)
  /-- UNKNOWN_COMMAND (R179): a write to CMD, as it comes from the bus, whose code names no command. -/
  | unknownCommand (value : Word) (enables : BitVec 4)
  /-- NOTICE_POP (R170): a write to NOTICE_POP of any value. -/
  | noticePop (value : Word)
  /-- INT_ENABLE (R171, R196): a write to INT_ENABLE with its byte enables. -/
  | intEnable (value : Word) (enables : BitVec 4)
  /-- PORT_WORD_WRITE (R177): a write to any other position of the port. -/
  | portWordWrite (address : BitVec 24) (value : Word) (enables : BitVec 4)
  /-- RESET_ASSERTED (R183), with the strap levels (log 9). -/
  | resetAsserted (straps : Station)
  /-- RESET_RELEASED (R185), with the strap levels sampled. -/
  | resetReleased (straps : Station)
  /-- PACE_ASSERTED (R81): PACE`n` becomes asserted. -/
  | paceAsserted (n : Fin 4)
  /-- PACE_DEASSERTED (R81): PACE`n` becomes deasserted. -/
  | paceDeasserted (n : Fin 4)
  /-- LBGNT_ASSERTED (R153). -/
  | lbgntAsserted
  /-- LBGNT_DEASSERTED (R155). -/
  | lbgntDeasserted
  /-- LBERR, falling in a bus cycle of the engine (R156) or, with `inCycle` false, outside any: an LBERR asserted during
  a job's last cycle falls there when that cycle's completion is taken first (R153, R162; log 31). -/
  | lberr (inCycle : Bool := true)
  /-- BUS_CYCLE_COMPLETE (R154), with the bytes that the board's other masters have stored in local memory
  since the cycle before, in their order (R163; log 5). -/
  | busCycleComplete (stores : List Host.Cell)
  /-- GRANT_WAIT_EXPIRY (R153). -/
  | grantWaitExpiry
  /-- START_OPPORTUNITY (R133). -/
  | startOpportunity
  /-- START_MARK (R131), with the driven condition seen. -/
  | startMark (seen : LineCond)
  /-- ROUND_LOST (R135). -/
  | roundLost
  /-- ROUND_WON (R135). -/
  | roundWon
  /-- FRAME_CRC_RECEIVED (R124), with the line's condition in each bit time of the frame from the first bit of
  its claim word to the bit time after its CRC (log 12). -/
  | frameCrcReceived (conds : List LineCond)
  /-- FRAME_END (R125, R132), with the line's condition in each bit time of the frame from the first bit of its claim
  word to this one (log 12); the shortest run is three undriven bit times, of a frame that stops at its start mark. -/
  | frameEnd (conds : List LineCond := [.undriven, .undriven, .undriven])
  /-- SENT_FRAME_END (R139), with the line's condition in the acceptance bit (R126). -/
  | sentFrameEnd (slot : LineCond)
  /-- CLASH (R140). -/
  | clash
  /-- JOINING_TIMER_EXPIRY (R130). -/
  | joiningTimerExpiry
  /-- RESPONSE_TIMER_EXPIRY (R107) of one entry. -/
  | responseTimerExpiry (entry : Fin 16)
  /-- HOLD_TIMER_EXPIRY (R114) of one entry. -/
  | holdTimerExpiry (entry : Fin 16)
  /-- FORMATION (R76): the channel is the arbiter's choice (R75). -/
  | formation
  /-- SIGNAL_FORMATION (R84): the channel is the arbiter's choice (R75). -/
  | signalFormation
  deriving DecidableEq, Repr

end Sys2Proof
end

