-- ==== Sys2Proof/Decode.lean ====
section
/-! DEFINITION. The line's formats: the bits of a frame, its CRC, the encoder that a sender uses and the
receiver that places a frame's CRC and decides whether the frame is good (R122 to R124, R193, R194); and
`decodeTableWord`, which answers none because no row of the table gives a command any bits. -/

namespace Sys2Proof

/-! ### Fields, most significant bit first (R122) -/

/-- The low `n` bits of `x`, most significant first. -/
def natBits : Nat → Nat → List Bool
  | 0, _ => []
  | n + 1, x => x.testBit n :: natBits n x

/-- A field as it is sent: most significant bit first (R122). -/
def sendBits {n : Nat} (v : BitVec n) : List Bool := natBits n v.toNat

/-- The number that a run of bits spells, most significant bit first. -/
def bitsValue (bs : List Bool) : Nat := bs.foldl (fun acc b => 2 * acc + b.toNat) 0

/-- Reads a field of `n` bits off the front of `bs`; none when fewer are left. -/
def takeField (n : Nat) (bs : List Bool) : Option (BitVec n × List Bool) :=
  if bs.length < n then none else some (BitVec.ofNat n (bitsValue (bs.take n)), bs.drop n)

/-- A payload as it is sent: one byte after another, each most significant bit first (R122). -/
def sendBytes : List Byte → List Bool
  | [] => []
  | b :: rest => sendBits b ++ sendBytes rest

/-- Reads `k` payload bytes off the front of `bs`. -/
def takeBytes : Nat → List Bool → Option (List Byte × List Bool)
  | 0, bs => some ([], bs)
  | k + 1, bs =>
    match takeField 8 bs with
    | none => none
    | some (b, rest) =>
      match takeBytes k rest with
      | none => none
      | some (more, last) => some (b :: more, last)

/-! ### Kinds, claims and tags (R193) -/

/-- The kind code of a frame (R193). -/
def FrameBody.kindCode : FrameBody → BitVec 3
  | .put .. => 1
  | .get .. => 2
  | .signal .. => 3
  | .data .. => 4
  | .done .. => 5

/-- Whether a frame's kind goes with class 1, a request (R122, R193). -/
def FrameBody.isRequest : FrameBody → Bool
  | .put .. => true
  | .get .. => true
  | .signal .. => true
  | .data .. => false
  | .done .. => false

/-- The station a frame is addressed to. -/
def FrameBody.dest : FrameBody → Station
  | .put d .. => d
  | .get d .. => d
  | .signal d .. => d
  | .data d .. => d
  | .done d .. => d

/-- The claim word as an 11-bit number: class, rank, sender (R193). -/
def Claim.word (c : Claim) : BitVec 11 := (BitVec.ofBool c.request ++ c.rank) ++ c.sender

/-- A tag as a number: index × 4,096 + epoch (R193). -/
def Tag.word (t : Tag) : BitVec 16 := t.entry ++ t.epoch

/-- A length field is 1 to 64 (R193). -/
def lengthInRange (n : BitVec 7) : Bool := 1 ≤ n.toNat && n.toNat ≤ 64

/-! ### The encoder (R122, R193) -/

/-- A tag's bits: entry index, then epoch (R193). -/
def Tag.bits (t : Tag) : List Bool := sendBits t.entry ++ sendBits t.epoch

/-- A claim word's bits: class, rank, sender (R193). -/
def Claim.bits (c : Claim) : List Bool := c.request :: (sendBits c.rank ++ sendBits c.sender)

/-- The fields after the frame kind, in the order of R122. -/
def FrameBody.fieldBits : FrameBody → List Bool
  | .put d inc t w off len pay =>
    sendBits d ++ (sendBits inc ++ (t.bits ++ (sendBits w ++ (sendBits off ++ (sendBits len ++ sendBytes pay)))))
  | .get d inc t w off len =>
    sendBits d ++ (sendBits inc ++ (t.bits ++ (sendBits w ++ (sendBits off ++ sendBits len))))
  | .signal d inc t v => sendBits d ++ (sendBits inc ++ (t.bits ++ sendBits v))
  | .data d t len pay => sendBits d ++ (t.bits ++ (sendBits len ++ sendBytes pay))
  | .done d t o => sendBits d ++ (t.bits ++ sendBits o)

/-- A frame's bits from its claim word through its last field: what the CRC covers (R123). -/
def Frame.bits (f : Frame) : List Bool :=
  f.claim.bits ++ (sendBits f.body.kindCode ++ f.body.fieldBits)

/-- One bit entering the CRC register (R194, steps 1 to 3). -/
def crcStep (reg : BitVec 16) (bit : Bool) : BitVec 16 :=
  if bit != reg.getLsbD 15 then (reg <<< 1) ^^^ 0x1021#16 else reg <<< 1

/-- The CRC of a run of bits, from a register of all ones (R123, R194). -/
def crc (bs : List Bool) : BitVec 16 := bs.foldl crcStep 0xFFFF#16

/-- What the sender drives from the first claim-word bit through the last CRC bit (R122, R123). -/
def Frame.wire (f : Frame) : List Bool := f.bits ++ sendBits (crc f.bits)

/-- The line condition that carries a bit (R121). -/
def LineCond.ofBit : Bool → LineCond
  | true => .bit1
  | false => .bit0

/-- A frame a sender can send: its class agrees with its kind, and a PUT, GET or DATA has a length of 1 to 64
with that many payload bytes where it has a payload (R122, R193). -/
def Frame.sendable (f : Frame) : Bool :=
  (f.claim.request == f.body.isRequest) &&
  match f.body with
  | .put _ _ _ _ _ len pay => lengthInRange len && pay.length == len.toNat
  | .get _ _ _ _ _ len => lengthInRange len
  | .signal .. => true
  | .data _ _ len pay => lengthInRange len && pay.length == len.toNat
  | .done .. => true

/-- The bit times of a whole frame, from its start mark to the last bit of its end mark (R193): 2 for the
start mark, 16 for the CRC, 2 for the acceptance slot and 3 for the end mark beside its bits. -/
def Frame.bitTimes (f : Frame) : Nat := 2 + f.bits.length + 16 + 2 + 3

/-! ### The receiver (R124, R193) -/

/-- Reads a tag. -/
def takeTag (bs : List Bool) : Option (Tag × List Bool) :=
  match takeField 4 bs with
  | none => none
  | some (e, r) =>
    match takeField 12 r with
    | none => none
    | some (p, r') => some (⟨e, p⟩, r')

/-- Reads a claim word. -/
def takeClaim (bs : List Bool) : Option (Claim × List Bool) :=
  match takeField 1 bs with
  | none => none
  | some (c, r) =>
    match takeField 5 r with
    | none => none
    | some (k, r1) =>
      match takeField 5 r1 with
      | none => none
      | some (s, r2) => some (⟨c == 1#1, k, s⟩, r2)

/-- The fields of a PUT: its extent is known only with a length of 1 to 64 (R124, R193). -/
def takePut (bs : List Bool) : Option (FrameBody × List Bool) := do
  let (d, r) ← takeField 5 bs
  let (inc, r) ← takeField 8 r
  let (t, r) ← takeTag r
  let (w, r) ← takeField 5 r
  let (off, r) ← takeField 24 r
  let (len, r) ← takeField 7 r
  if lengthInRange len then
    let (pay, r) ← takeBytes len.toNat r
    pure (.put d inc t w off len pay, r)
  else none

/-- The fields of a GET: any length field, for its extent does not depend on it (R193). -/
def takeGet (bs : List Bool) : Option (FrameBody × List Bool) := do
  let (d, r) ← takeField 5 bs
  let (inc, r) ← takeField 8 r
  let (t, r) ← takeTag r
  let (w, r) ← takeField 5 r
  let (off, r) ← takeField 24 r
  let (len, r) ← takeField 7 r
  pure (.get d inc t w off len, r)

/-- The fields of a SIGNAL. -/
def takeSignal (bs : List Bool) : Option (FrameBody × List Bool) := do
  let (d, r) ← takeField 5 bs
  let (inc, r) ← takeField 8 r
  let (t, r) ← takeTag r
  let (v, r) ← takeField 32 r
  pure (.signal d inc t v, r)

/-- The fields of a DATA: its extent is known only with a length of 1 to 64 (R124, R193). -/
def takeData (bs : List Bool) : Option (FrameBody × List Bool) := do
  let (d, r) ← takeField 5 bs
  let (t, r) ← takeTag r
  let (len, r) ← takeField 7 r
  if lengthInRange len then
    let (pay, r) ← takeBytes len.toNat r
    pure (.data d t len pay, r)
  else none

/-- The fields of a DONE: any outcome code (R193). -/
def takeDone (bs : List Bool) : Option (FrameBody × List Bool) := do
  let (d, r) ← takeField 5 bs
  let (t, r) ← takeTag r
  let (o, r) ← takeField 3 r
  pure (.done d t o, r)

/-- The fields of the kind that a code names; codes 0, 6 and 7 name no kind (R193). -/
def takeBody (kind : BitVec 3) (bs : List Bool) : Option (FrameBody × List Bool) :=
  if kind = 1 then takePut bs
  else if kind = 2 then takeGet bs
  else if kind = 3 then takeSignal bs
  else if kind = 4 then takeData bs
  else if kind = 5 then takeDone bs
  else none

/-- The frame that a run of bits, claim word through last field, spells: none when the extent is not known
or the bits are not exactly that extent (R124). -/
def parseFrame (bs : List Bool) : Option Frame :=
  match takeClaim bs with
  | none => none
  | some (c, r) =>
    match takeField 3 r with
    | none => none
    | some (k, r1) =>
      match takeBody k r1 with
      | some (body, []) => if c.request = body.isRequest then some ⟨c, body⟩ else none
      | _ => none

/-- What the line carries when two stations drive it in one bit time (R121): an undriven drive gives way to every
driven condition, a bit 1 to a bit 0 and both marks, and a bit 0 to an abort mark. A start mark against a bit 0 or
an abort mark is a free value (log 32). -/
def LineCond.combine : LineCond → LineCond → LineCond
  | .undriven, c => c
  | c, .undriven => c
  | .bit1, c => c
  | c, .bit1 => c
  | .bit0, .bit0 => .bit0
  | .bit0, .abortMark => .abortMark
  | .abortMark, .bit0 => .abortMark
  | .abortMark, .abortMark => .abortMark
  | .startMark, .startMark => .startMark
  | .startMark, .bit0 => Config.startMarkWith .bit0
  | .bit0, .startMark => Config.startMarkWith .bit0
  | .startMark, .abortMark => Config.startMarkWith .abortMark
  | .abortMark, .startMark => Config.startMarkWith .abortMark

/-- What the line carries in one bit time, from what each station drives in it; undriven when none drives (R121). -/
def carried (drives : List LineCond) : LineCond := drives.foldr LineCond.combine .undriven

/-- The data bit that a condition carries; an undriven bit time and the two marks carry none (R121). -/
def LineCond.toBit : LineCond → Option Bool
  | .bit0 => some false
  | .bit1 => some true
  | .undriven => none
  | .startMark => none
  | .abortMark => none

/-- The bits of a run of conditions, none as soon as one of them is no data bit (R124). -/
def condBits : List LineCond → Option (List Bool)
  | [] => some []
  | c :: rest =>
    match c.toBit, condBits rest with
    | some b, some bs => some (b :: bs)
    | _, _ => none

/-- A frame with its CRC in its place: the last 16 bits equal the register's value over the rest (R123, R124). -/
def checkFrame (bs : List Bool) : Option Frame :=
  let body := bs.take (bs.length - 16)
  if bs.length < 16 then none
  else if sendBits (crc body) = bs.drop (bs.length - 16) then parseFrame body
  else none

/-- What a receiver makes of the conditions from the claim word to the bit time after the CRC: the good
frame, or none for a bad one (R124). -/
def receive (conds : List LineCond) : Option Frame :=
  match conds.getLast? with
  | none => none
  | some .abortMark => none
  | some _ =>
    match condBits conds.dropLast with
    | none => none
    | some bs => checkFrame bs

/-- What a receiver sees of a frame sent whole: its bits, its CRC, and the bit time `after` it. -/
def Frame.conds (f : Frame) (after : LineCond) : List LineCond := f.wire.map LineCond.ofBit ++ [after]

/-! ### Where a frame ends (R124, R125) -/

/-- The number in the field of `width` bits that begins `low` bit times into a frame: none until the whole field has come,
and none where a bit time of it carries no data bit. -/
def condField (conds : List LineCond) (low width : Nat) : Option Nat :=
  if conds.length < low + width then none else (condBits ((conds.drop low).take width)).map bitsValue

/-- The bit times from the first bit of the claim word through the last bit of the CRC, for a frame with `fixed` bits
before a payload of `length` bytes: known only with a length of 1 to 64 (R124, R193). -/
def payloadExtent (fixed length : Nat) : Option Nat :=
  if 1 ≤ length ∧ length ≤ 64 then some (fixed + 8 * length + 16) else none

/-- A frame's extent, from its first claim-word bit through its last CRC bit: known when the kind is one of the five,
agrees with the class, and a PUT or DATA has a length of 1 to 64 (R124). Class, kind and length stand where the widths of
R193 put them. -/
def frameExtent (conds : List LineCond) : Option Nat :=
  match condField conds 0 1, condField conds 11 3 with
  | some 1, some 1 => (condField conds 72 7).bind (payloadExtent 79)
  | some 1, some 2 => some 95
  | some 1, some 3 => some 91
  | some 0, some 4 => (condField conds 35 7).bind (payloadExtent 42)
  | some 0, some 5 => some 54
  | _, _ => none

/-- A frame of `extent` bits went on to its end: no bit time of its bits was undriven or an abort mark, and the bit time
after its CRC has come and is no abort mark (R124, R126). -/
def reachedSlot (conds : List LineCond) (extent : Nat) : Bool :=
  decide (extent < conds.length) && ((conds.take extent).all fun c => c != .undriven && c != .abortMark) &&
    conds[extent]? != some .abortMark

/-- The last of these bit times is the first that is the third consecutive undriven one, `run` of which came just before
them. -/
def endsQuiet (run : Nat) : List LineCond → Bool
  | [] => run == 3
  | c :: rest => run != 3 && endsQuiet (if c = .undriven then run + 1 else 0) rest

/-- The last of these bit times, which begin at the first bit of the claim word, is the end of the frame (R125). A good frame,
or one whose extent was known, ends three bit times after the two of its acceptance slot, whatever the line carries there;
a frame ended by an abort mark, one whose extent was not known and one that went undriven before its CRC end at the third
consecutive undriven bit time. -/
def endsFrame (conds : List LineCond) : Bool :=
  match frameExtent conds with
  | none => endsQuiet 0 conds
  | some extent => if reachedSlot conds extent then conds.length == extent + 5 else endsQuiet 0 conds

/-- The good frame among the bit times of a frame, from its first claim-word bit to any later bit time; none for a bad
one (R124). -/
def receivedFrame (conds : List LineCond) : Option Frame :=
  (frameExtent conds).bind fun extent => receive (conds.take (extent + 1))

/-! ### Writes to the Local Port (R177, R196) -/

/-- The word a write to CMD takes: bytes whose enables are off count as 0 (R177). -/
def enabledWord (value : Word) (enables : BitVec 4) : Word :=
  (if enables.getLsbD 0 then value &&& 0x000000FF#32 else 0) |||
  (if enables.getLsbD 1 then value &&& 0x0000FF00#32 else 0) |||
  (if enables.getLsbD 2 then value &&& 0x00FF0000#32 else 0) |||
  (if enables.getLsbD 3 then value &&& 0xFF000000#32 else 0)

/-- The fourteen command codes (R196). -/
def commandCodes : List Word := [1, 2, 3, 4, 5, 6, 7, 16, 17, 18, 19, 20, 32, 48]

/-- The word position that a port address selects: LA2 to LA7 (R196). -/
def portPosition (address : BitVec 24) : Nat := (address.extractLsb' 2 6).toNat

/-! ### The table's words -/

/-- No row of spec/opcode_table.json gives a command any bits (its "fields" are empty and it has no
"fixed"), so no word spells a command. -/
def decodeTableWord (_nbits _w : Nat) : Option Instr := none

end Sys2Proof
end

