-- ==== Sys2Proof/Machine/State.lean ====
section
/-! DEFINITION. Everything the spec gives the station to hold, as plain data, and its value after a full
reset with RESET# still asserted. -/

namespace Sys2Proof.Machine

/-! ### Why a step can stop -/

/-- The model's faults. -/
inductive Fault where
  /-- Raised by BUS_CYCLE_COMPLETE when the engine's cycle, or a store of another bus master that the
  command carries, is at a local address above 16,777,215, which does not exist (R150 says that no job's range
  reaches one). Safe: the model stops where no rule says what happens. -/
  | outsideLocalMemory
  deriving DecidableEq, Repr

/-- The model's refusals. -/
inductive Refusal where
  /-- Raised by `exec` alone, for a command that has no meaning yet. Safe. -/
  | notModelled (mnemonic : String)
  deriving DecidableEq, Repr

/-! ### Windows (R1) -/

/-- The four states of a window entry (R1, section 1.2). -/
inductive WindowState where
  | free
  | opened
  | parked
  | closing
  deriving DecidableEq, Repr

/-- The two kinds of window (R1). -/
inductive WindowKind where
  | memory
  | mailbox
  deriving DecidableEq, Repr

/-- A window entry, field for field (R1). -/
structure WindowEntry where
  state : WindowState
  kind : WindowKind
  base : Nat
  limit : Nat
  slotCount : Nat
  readGrants : Word
  writeGrants : Word
  inUse : Nat
  touched : Bool
  quietWanted : Bool
  head : Nat
  committed : Nat
  reserved : Nat
  sequence : BitVec 16
  deriving DecidableEq, Repr

/-- A FREE entry with every other field 0 (R3, R11). -/
def WindowEntry.cleared : WindowEntry where
  state := .free
  kind := .memory
  base := 0
  limit := 0
  slotCount := 0
  readGrants := 0
  writeGrants := 0
  inUse := 0
  touched := false
  quietWanted := false
  head := 0
  committed := 0
  reserved := 0
  sequence := 0

/-! ### Serving requests (R23, R41) -/

/-- The outcomes a DONE carries (00_scope.md Terms, R193). -/
inductive DoneOutcome where
  | ok
  | absent
  | denied
  | range
  | parked
  | full
  | fault
  deriving DecidableEq, Repr

/-- The phases of a responder operation (R23). -/
inductive OpPhase where
  | executing
  | answering
  deriving DecidableEq, Repr

/-- A built response: a DONE with its outcome, or a DATA from the operation's buffer (R23, R45). -/
inductive Response where
  | done (outcome : DoneOutcome)
  | data
  deriving DecidableEq, Repr

/-- A responder operation, field for field (R23), with the sequence number that R51 fixes at admission. -/
structure Operation where
  phase : OpPhase
  requester : Station
  incarnation : Byte
  tag : Tag
  kind : RequestKind
  window : Option (Fin 32)
  localAddress : Option Nat
  length : Option Nat
  mailboxSlot : Option Nat
  mailboxSequence : Option (BitVec 16)
  buffer : Option (Fin 24)
  response : Option Response
  sendCount : Nat
  deriving DecidableEq, Repr

/-- The states of a replay record (R41). -/
inductive ReplayState where
  | empty
  | pending
  | settled
  deriving DecidableEq, Repr

/-- The outcomes a SETTLED record keeps (R41). -/
inductive ReplayOutcome where
  | ok
  | fault
  deriving DecidableEq, Repr

/-- A replay record (R41). -/
structure ReplayRecord where
  state : ReplayState
  incarnation : Byte
  epoch : BitVec 12
  outcome : Option ReplayOutcome
  deriving DecidableEq, Repr

/-- An EMPTY record (R41). -/
def ReplayRecord.cleared : ReplayRecord where
  state := .empty
  incarnation := 0
  epoch := 0
  outcome := none

/-! ### Channels (R65) -/

/-- The eight states of a channel (R65, section 4.2). -/
inductive ChannelState where
  | idle
  | ready
  | running
  | finishing
  | signalling
  | halting
  | faulted
  | done
  deriving DecidableEq, Repr

/-- A channel's direction (R65). -/
inductive Direction where
  | push
  | pull
  deriving DecidableEq, Repr

/-- The channel fault codes (R65, R88, R92). -/
inductive FaultCode where
  | none
  | absent
  | denied
  | range
  | remoteFault
  | noAnswer
  | heldTooLong
  | localFault
  | aborted
  deriving DecidableEq, Repr

/-- A channel record, field for field (R65). -/
structure Channel where
  state : ChannelState
  direction : Direction
  target : Station
  window : BitVec 5
  mailbox : Bool
  initialRemote : Nat
  currentRemote : Nat
  initialLocal : Nat
  currentLocal : Nat
  initialCount : Nat
  remaining : Nat
  frameSize : Nat
  depth : Nat
  reload : Bool
  paced : Bool
  signal : Option Word
  live : Nat
  armed : Bool
  faultCode : FaultCode
  faultOffset : Nat
  faultAtSignal : Bool
  deriving DecidableEq, Repr

/-- An IDLE channel with every other field 0 (R66). -/
def Channel.cleared : Channel where
  state := .idle
  direction := .push
  target := 0
  window := 0
  mailbox := false
  initialRemote := 0
  currentRemote := 0
  initialLocal := 0
  currentLocal := 0
  initialCount := 0
  remaining := 0
  frameSize := 0
  depth := 0
  reload := false
  paced := false
  signal := none
  live := 0
  armed := false
  faultCode := .none
  faultOffset := 0
  faultAtSignal := false

/-! ### Outstanding requests (R97) -/

/-- The eight states of an entry (R97, section 5.2). -/
inductive EntryState where
  | free
  | staging
  | queued
  | sending
  | sent
  | holding
  | landing
  | releasing
  deriving DecidableEq, Repr

/-- An entry's timer, with the length of what it runs toward in µs (R97, R105, R113; log 2). -/
inductive EntryTimer where
  | stopped
  | responseDeadline (us : Nat)
  | holdEnd (us : Nat)
  deriving DecidableEq, Repr

/-- An entry of the Outstanding Request Table, field for field (R97). -/
structure Entry where
  state : EntryState
  epoch : BitVec 12
  owner : Option (Fin 8)
  kind : RequestKind
  target : Station
  window : BitVec 5
  mailbox : Bool
  remoteOffset : Nat
  localAddress : Nat
  length : Nat
  signalValue : Word
  buffer : Option (Fin 24)
  retry : Nat
  hold : Nat
  timer : EntryTimer
  deriving DecidableEq, Repr

/-- A FREE entry that holds its last epoch and 0 elsewhere (R98, R99; log 20). -/
def Entry.freeWith (epoch : BitVec 12) : Entry where
  state := .free
  epoch := epoch
  owner := none
  kind := .put
  target := 0
  window := 0
  mailbox := false
  remoteOffset := 0
  localAddress := 0
  length := 0
  signalValue := 0
  buffer := none
  retry := 0
  hold := 0
  timer := .stopped

/-! ### The line (R119) -/

/-- The seven line states (R119). -/
inductive LineState where
  | offline
  | joining
  | idle
  | contending
  | sending
  | receiving
  | silent
  deriving DecidableEq, Repr

/-- The owner of a frame in hand (R119): the operation in a Response Queue slot, or an entry. -/
inductive HandOwner where
  | response (slot : Fin 8)
  | request (entry : Fin 16)
  deriving DecidableEq, Repr

/-- The frame in hand with its claim word and its owner (R119, R133). -/
structure Hand where
  frame : Frame
  owner : HandOwner
  deriving DecidableEq, Repr

/-- The receipt under way, which R124, R126, R130, R137 and R143 imply (log 13): no frame; not yet in step with
the line, whose present frame's start mark was not seen; a frame being received; a good frame, with its
sender and whether this station drives its acceptance bit. -/
inductive Receipt where
  | nothing
  | outOfStep
  | receiving
  | good (sender : Station) (accept : Bool)
  deriving DecidableEq, Repr

/-- The Line Access Unit's state (R119). `joinTimer` is none while stopped; `aborting` is set while the station
drives the abort mark of a clash (R140; log 29). -/
structure Line where
  state : LineState
  lastWinner : Station
  clashes : Nat
  joinTimer : Option Nat
  hand : Option Hand
  rx : Receipt
  aborting : Bool
  deriving DecidableEq, Repr

/-! ### Buffers and jobs (R146, R150) -/

/-- The owners of a buffer (R146). -/
inductive BufferOwner where
  | operation (slot : Fin 8)
  | entry (index : Fin 16)
  deriving DecidableEq, Repr

/-- A frame buffer (R146). -/
structure Buffer where
  owner : Option BufferOwner
  data : Vector Byte 64
  deriving DecidableEq, Repr

/-- A job's kind (R150). -/
inductive JobKind where
  | read
  | write
  deriving DecidableEq, Repr

/-- A job's class (R150). -/
inductive JobClass where
  | responder
  | requester
  | start
  deriving DecidableEq, Repr

/-- A job's owner (R150). -/
inductive JobOwner where
  | operation (slot : Fin 8)
  | entry (index : Fin 16)
  | loader
  deriving DecidableEq, Repr

/-- A job's phase (R150). -/
inductive JobPhase where
  | listed
  | requesting
  | moving
  deriving DecidableEq, Repr

/-- A job record (R150). `buffer` is none for the Start Loader's own holding; `lastCycle` is set while the
cycle in progress is to be the last one, because the grant went during it (R155, R162; log 16). -/
structure Job where
  kind : JobKind
  cls : JobClass
  address : Nat
  length : Nat
  buffer : Option (Fin 24)
  owner : JobOwner
  phase : JobPhase
  moved : Nat
  mailboxSlot : Option Nat
  lastCycle : Bool
  deriving DecidableEq, Repr

/-- The Local Memory Engine (R151 to R153). `timer` is none while stopped and otherwise the limit in µs that
the grant-wait timer runs to (log 2). -/
structure Engine where
  responder : List Job
  requester : List Job
  job : Option Job
  timer : Option Nat
  lbreq : Bool
  deriving DecidableEq, Repr

/-- An idle engine with empty lists (R161). -/
def Engine.cleared : Engine where
  responder := []
  requester := []
  job := none
  timer := none
  lbreq := false

/-! ### Notices (R164) -/

/-- The start failure reasons (R184). -/
inductive StartReason where
  | memory
  | format
  | checksum
  | range
  deriving DecidableEq, Repr

/-- How joining ended (R130). -/
inductive JoinedHow where
  | frame
  | quiet
  deriving DecidableEq, Repr

/-- A notice record: its kind and its fields (R164, section 8.2). -/
inductive Notice where
  | channelEnd (channel : Fin 8) (reloaded : Bool)
  | channelFault (channel : Fin 8) (code : FaultCode) (offset : Nat) (atSignal : Bool)
  | windowTouched (window : Fin 32) (sender : Station) (offset : Nat)
  | windowQuiet (window : Fin 32)
  | windowClosed (window : Fin 32)
  | mailboxArrival (window : Fin 32) (slot : Nat)
  | remoteSignal (sender : Station) (value : Word)
  | localFault (window : Fin 32) (localAddress : Nat) (slot : Option Nat)
  | lineJoined (how : JoinedHow) (lastWinner : Station)
  | lineSilent (clashes : Nat)
  | startFailed (reason : StartReason)
  | overflow
  deriving DecidableEq, Repr

/-- The Notice Queue: its records, oldest first, the interrupt enable and the INT output (R164, R171). -/
structure NoticeQueue where
  records : List Notice
  enable : Bool
  int : Bool
  deriving DecidableEq, Repr

/-- The queue after a full reset (R165). -/
def NoticeQueue.cleared : NoticeQueue where
  records := []
  enable := false
  int := false

/-! ### The port and the loader (R177, R184) -/

/-- The values of RESULT (R180). -/
inductive Result where
  | none
  | done
  | pending
  | badArg
  | wrongState
  | notReady
  | unknownCommand
  deriving DecidableEq, Repr

/-- The station states (R184). -/
inductive StationState where
  | starting
  | running
  | startFailed
  deriving DecidableEq, Repr

/-- The priority policies (R136, R186). -/
inductive Policy where
  | rotating
  | fixed
  deriving DecidableEq, Repr

/-- The start configuration other than the station number (R184). -/
structure StartConfig where
  lineRate : Nat
  policy : Policy
  incarnation : Byte
  responseLimit : Nat
  retryLimit : Nat
  holdInterval : Nat
  holdLimit : Nat
  grantWait : Nat
  signalGrants : Word
  deriving DecidableEq, Repr

/-- Every field 0, the signal grant set empty (R184). -/
def StartConfig.cleared : StartConfig where
  lineRate := 0
  policy := .rotating
  incarnation := 0
  responseLimit := 0
  retryLimit := 0
  holdInterval := 0
  holdLimit := 0
  grantWait := 0
  signalGrants := 0

/-- The Start Loader (R184), with the station number it sampled (R185) and its own holding of the start
block's bytes (R160). -/
structure Loader where
  station : StationState
  number : Station
  config : StartConfig
  reason : Option StartReason
  holding : Vector Byte 44
  deriving DecidableEq, Repr

/-- The levels of the pins the block reads: RESET# held, the straps, PACE0 to PACE3, LBGNT. -/
structure Pins where
  resetHeld : Bool
  straps : Station
  pace : Vector Bool 4
  lbgnt : Bool
  deriving DecidableEq, Repr

/-- Local memory: cells at strictly rising addresses, none equal to what an unlisted address reads as. -/
abbrev Memory := List Host.Cell

/-- The machine. -/
structure State where
  pending : List Instr
  pins : Pins
  windows : Vector WindowEntry 32
  slots : Vector (Option Operation) 8
  sendOrder : List (Fin 8)
  replay : Vector ReplayRecord 512
  channels : Vector Channel 8
  pointer : Fin 8
  entries : Vector Entry 16
  requestQueue : List (Fin 16)
  line : Line
  buffers : Vector Buffer 24
  engine : Engine
  notices : NoticeQueue
  cmd : Word
  args : Vector Word 6
  result : Result
  loader : Loader
  mem : Memory
  freeCount : Nat
  deriving DecidableEq, Repr

/-- The Line Access Unit after a full reset (R120). -/
def Line.cleared : Line where
  state := .offline
  lastWinner := 31
  clashes := 0
  joinTimer := none
  hand := none
  rx := .nothing
  aborting := false

/-- The machine after a full reset, with RESET# still asserted and nothing placed: every block at the values
of R3, R24, R41, R66, R99, R120, R146, R161, R165, R178 and R184. The pins' levels, the contents of the buffers and
of local memory are DESIGN CHOICES (log 4, log 8, log 22). -/
def State.reset : State where
  pending := []
  pins := ⟨true, 0, Vector.replicate 4 false, false⟩
  windows := Vector.replicate 32 .cleared
  slots := Vector.replicate 8 none
  sendOrder := []
  replay := Vector.replicate 512 .cleared
  channels := Vector.replicate 8 .cleared
  pointer := 7
  entries := Vector.replicate 16 (Entry.freeWith 0)
  requestQueue := []
  line := .cleared
  buffers := Vector.replicate 24 ⟨none, Vector.replicate 64 Config.bufferFill⟩
  engine := .cleared
  notices := .cleared
  cmd := 0
  args := Vector.replicate 6 0
  result := .none
  loader := ⟨.starting, 0, .cleared, none, Vector.replicate 44 0⟩
  mem := []
  freeCount := 0

end Sys2Proof.Machine
end

