-- ==== Sys2Proof/Machine/Ops.lean ====
section
/-! DEFINITION. The named operations over memory and the tables: reading and writing local memory,
replacing one record of a table, posting and popping notices, taking and returning buffers, listing, selecting
and moving jobs, and releasing several entries at once. -/

namespace Sys2Proof.Machine

/-! ### Local memory -/

/-- The byte at a local address; an address with no cell reads as the fill (log 4). -/
def Memory.read : Memory → Nat → Byte
  | [], _ => Config.memoryFill
  | c :: rest, a => if c.1 = a then c.2 else Memory.read rest a

/-- Stores one byte, keeping the canonical form: the cells stay sorted, and storing the fill removes the
cell. -/
def Memory.write : Memory → Nat → Byte → Memory
  | [], a, v => if v = Config.memoryFill then [] else [(a, v)]
  | c :: rest, a, v =>
    if a < c.1 then (if v = Config.memoryFill then c :: rest else (a, v) :: c :: rest)
    else if a = c.1 then (if v = Config.memoryFill then rest else (a, v) :: rest)
    else c :: Memory.write rest a v

/-- Stores bytes one after another. -/
def Memory.writeCells (m : Memory) (cells : List Host.Cell) : Memory :=
  cells.foldl (fun m c => Memory.write m c.1 c.2) m

/-- Every cell of `m` is above `low`, in the address space and not the fill, at strictly rising addresses. -/
def Memory.wfFrom : Nat → Memory → Bool
  | _, [] => true
  | low, c :: rest =>
    decide (low ≤ c.1) && decide (c.1 < Config.memorySize) && decide (c.2 ≠ Config.memoryFill) &&
      Memory.wfFrom (c.1 + 1) rest

/-- The canonical form: addresses strictly rising and inside the address space, no cell equal to the fill. -/
def Memory.wf (m : Memory) : Bool := Memory.wfFrom 0 m

/-! ### Replacing one record of a table -/

/-- Replaces one window entry. -/
def State.setWindow (s : State) (i : Fin 32) (w : WindowEntry) : State :=
  { s with windows := s.windows.set i w }

/-- Replaces one Response Queue slot. -/
def State.setSlot (s : State) (i : Fin 8) (o : Option Operation) : State :=
  { s with slots := s.slots.set i o }

/-- Replaces one replay record. -/
def State.setReplay (s : State) (k : Fin 512) (r : ReplayRecord) : State :=
  { s with replay := s.replay.set k r }

/-- Replaces one channel record. -/
def State.setChannel (s : State) (c : Fin 8) (r : Channel) : State :=
  { s with channels := s.channels.set c r }

/-- Replaces one entry of the Outstanding Request Table. -/
def State.setEntry (s : State) (i : Fin 16) (e : Entry) : State :=
  { s with entries := s.entries.set i e }

/-- Replaces one buffer. -/
def State.setBuffer (s : State) (b : Fin 24) (x : Buffer) : State :=
  { s with buffers := s.buffers.set b x }

/-- Replaces the line unit's state. -/
def State.setLine (s : State) (l : Line) : State := { s with line := l }

/-- Replaces the engine's state. -/
def State.setEngine (s : State) (e : Engine) : State := { s with engine := e }

/-- The replay record's place for a requester station and entry index (R41). -/
def replayIndex (requester : Station) (entry : BitVec 4) : Fin 512 := (requester ++ entry).toFin

/-- Whether a station is in a grant set: bit n holds station n (R198). -/
def inGrants (set : Word) (station : Station) : Bool := set.getLsbD station.toNat

/-! ### The Notice Queue (R166 to R171) -/

/-- INT is asserted exactly while the count is above 0 and the enable is on (R171). -/
def NoticeQueue.updateInt (q : NoticeQueue) : NoticeQueue :=
  { q with int := q.enable && !q.records.isEmpty }

/-- Whether the overflow marker is in the queue (R172). -/
def NoticeQueue.hasMarker (q : NoticeQueue) : Bool := q.records.contains .overflow

/-- The records after a post (R167 without a marker, R168 with one). -/
def NoticeQueue.postRecords (q : NoticeQueue) (n : Notice) : List Notice :=
  if q.hasMarker then
    if q.records.length < Config.noticeRoom then q.records.dropLast ++ [n, .overflow] else q.records
  else if q.records.length + 1 < Config.noticeRoom then q.records ++ [n]
  else if q.records.length + 1 = Config.noticeRoom then q.records ++ [.overflow]
  else q.records

/-- A post (R166). -/
def NoticeQueue.post (q : NoticeQueue) (n : Notice) : NoticeQueue :=
  { q with records := q.postRecords n }.updateInt

/-- A pop: removes the head, if any (R170). -/
def NoticeQueue.pop (q : NoticeQueue) : NoticeQueue :=
  { q with records := q.records.tail }.updateInt

/-- An enable change (R171). -/
def NoticeQueue.setEnable (q : NoticeQueue) (on : Bool) : NoticeQueue :=
  { q with enable := on }.updateInt

/-- A block posts a notice (R166). -/
def State.post (s : State) (n : Notice) : State := { s with notices := s.notices.post n }

/-! ### The Frame Buffer Pool (R146 to R149) -/

/-- The lowest free buffer; which one is given cannot be observed (R148; log 21). -/
def freeBuffer (s : State) : Option (Fin 24) :=
  (List.finRange 24).find? fun b => s.buffers[b].owner.isNone

/-- Whether a buffer is held on the requester side (R146). -/
def Buffer.onRequesterSide (b : Buffer) : Bool :=
  match b.owner with
  | some (.entry _) => true
  | some (.operation _) => false
  | none => false

/-- Whether a buffer is held on the responder side (R146). -/
def Buffer.onResponderSide (b : Buffer) : Bool :=
  match b.owner with
  | some (.entry _) => false
  | some (.operation _) => true
  | none => false

/-- The number of buffers held on the requester side (R146). -/
def requesterHeld (s : State) : Nat := s.buffers.toList.countP Buffer.onRequesterSide

/-- The number of buffers held on the responder side (R146). -/
def responderHeld (s : State) : Nat := s.buffers.toList.countP Buffer.onResponderSide

/-- The number of free buffers (R147). -/
def freeBuffers (s : State) : Nat := s.buffers.toList.countP fun b => b.owner.isNone

/-- Gives a buffer to an owner; its bytes stay as the last owner left them (R148). -/
def State.giveBuffer (s : State) (b : Option (Fin 24)) (o : BufferOwner) : State :=
  match b with
  | none => s
  | some b => s.setBuffer b { s.buffers[b] with owner := some o }

/-- Returns a buffer to the Pool (R148). -/
def State.returnBuffer (s : State) (b : Option (Fin 24)) : State :=
  match b with
  | none => s
  | some b => s.setBuffer b { s.buffers[b] with owner := none }

/-- Puts bytes into a buffer's data from position `at'` on. -/
def putBytes (data : Vector Byte 64) (at' : Nat) : List Byte → Vector Byte 64
  | [] => data
  | b :: rest => putBytes (data.setIfInBounds at' b) (at' + 1) rest

/-- Places a payload in a buffer, its first byte first (R30, R111). -/
def State.fillBuffer (s : State) (b : Option (Fin 24)) (payload : List Byte) : State :=
  match b with
  | none => s
  | some b => s.setBuffer b { s.buffers[b] with data := putBytes s.buffers[b].data 0 payload }

/-- The first `n` bytes of a buffer. -/
def bufferBytes (s : State) (b : Option (Fin 24)) (n : Nat) : List Byte :=
  match b with
  | none => []
  | some b => s.buffers[b].data.toList.take n

/-- One byte of a buffer. -/
def bufferByte (s : State) (b : Option (Fin 24)) (k : Nat) : Byte :=
  match b with
  | none => 0
  | some b => s.buffers[b].data.toList.getD k 0

/-! ### The engine's lists and its arbiter (R151 to R153) -/

/-- The grant wait limit that applies to a job: 255 µs for the start read, the start block's otherwise (R153,
R160). -/
def grantLimit (s : State) (j : Job) : Nat :=
  match j.cls with
  | .start => Config.startGrantWait
  | .responder => s.loader.config.grantWait
  | .requester => s.loader.config.grantWait

/-- Selects a job: LBREQ is asserted and the grant wait starts, or the job is MOVING at once when LBGNT is
asserted already (R152, R153). -/
def State.startJob (s : State) (j : Job) : State :=
  if s.pins.lbgnt then
    s.setEngine { s.engine with job := some { j with phase := .moving }, timer := none, lbreq := true }
  else
    s.setEngine
      { s.engine with job := some { j with phase := .requesting }, timer := some (grantLimit s j), lbreq := true }

/-- The arbiter: an idle engine takes the head of the responder list, or else of the requester list (R152). -/
def State.selectJob (s : State) : State :=
  match s.engine.job with
  | some _ => s
  | none =>
    match s.engine.responder, s.engine.requester with
    | j :: rest, _ => (s.setEngine { s.engine with responder := rest }).startJob j
    | [], j :: rest => (s.setEngine { s.engine with requester := rest }).startJob j
    | [], [] => s

/-- Queues a job at the tail of the responder list (R151). -/
def State.queueResponder (s : State) (j : Job) : State :=
  (s.setEngine { s.engine with responder := s.engine.responder ++ [j] }).selectJob

/-- Queues a job at the tail of the requester list (R151). -/
def State.queueRequester (s : State) (j : Job) : State :=
  (s.setEngine { s.engine with requester := s.engine.requester ++ [j] }).selectJob

/-- A job that has not started (R150). -/
def Job.listed (kind : JobKind) (cls : JobClass) (address length : Nat) (buffer : Option (Fin 24)) (owner : JobOwner)
    (mailboxSlot : Option Nat) : Job :=
  ⟨kind, cls, address, length, buffer, owner, .listed, 0, mailboxSlot, false⟩

/-! ### Bus cycles (R154) -/

/-- The local address of a job's `k`-th byte, in the job's own order: ascending, but a mailbox slot write
moves its 64 data bytes from slot address + 8 before its 8 header bytes (R52, R154). -/
def Job.byteAddress (j : Job) (k : Nat) : Nat :=
  match j.mailboxSlot with
  | none => j.address + k
  | some _ =>
    if k < Config.mailboxDataBytes then j.address + 8 + k else j.address + (k - Config.mailboxDataBytes)

/-- Where the run of ascending addresses that holds byte `k` ends. -/
def Job.runEnd (j : Job) (k : Nat) : Nat :=
  match j.mailboxSlot with
  | none => j.length
  | some _ => if k < Config.mailboxDataBytes then Config.mailboxDataBytes else j.length

/-- The number of bytes the cycle in progress enables: the job's bytes in the aligned word of its next byte
(R154). -/
def Job.cycleLength (j : Job) : Nat :=
  min (4 - j.byteAddress j.moved % 4) (j.runEnd j.moved - j.moved)

/-- The positions in the job of the bytes the cycle in progress moves. -/
def Job.cyclePositions (j : Job) : List Nat := (List.range j.cycleLength).map fun i => j.moved + i

/-- The local addresses of the cycle in progress. -/
def Job.cycleAddresses (j : Job) : List Nat := j.cyclePositions.map j.byteAddress

/-- The operation in the slot that owns a job. -/
def ownerOperation (s : State) (o : JobOwner) : Option Operation :=
  match o with
  | .operation slot => s.slots[slot]
  | .entry _ => none
  | .loader => none

/-- A byte of a mailbox slot's header, built from the operation record (R52, R154, R195). -/
def headerByte (op : Operation) (k : Nat) : Byte :=
  match k with
  | 0 => BitVec.ofNat 8 (op.length.getD 0)
  | 1 => op.requester.setWidth 8
  | 2 => op.tag.word.extractLsb' 0 8
  | 3 => op.tag.word.extractLsb' 8 8
  | 4 => op.incarnation
  | 5 => 0
  | 6 => (op.mailboxSequence.getD 0).extractLsb' 0 8
  | _ => (op.mailboxSequence.getD 0).extractLsb' 8 8

/-- The byte a WRITE job stores as its `k`-th: from its buffer, and for a mailbox slot write a padding zero
after the payload and the header last (R52, R154). -/
def jobByte (s : State) (j : Job) (k : Nat) : Byte :=
  match j.mailboxSlot with
  | none => bufferByte s j.buffer k
  | some _ =>
    match ownerOperation s j.owner with
    | none => 0
    | some op =>
      if k < Config.mailboxDataBytes then (if k < op.length.getD 0 then bufferByte s j.buffer k else 0)
      else headerByte op (k - Config.mailboxDataBytes)

/-- The cells that a WRITE job's cycle in progress stores. -/
def cycleCells (s : State) (j : Job) : List Host.Cell :=
  j.cyclePositions.map fun k => (j.byteAddress k, jobByte s j k)

/-- Places a READ cycle's bytes, from the job's position on, in a list of bytes. -/
def placeBytes {n : Nat} (data : Vector Byte n) (mem : Memory) (j : Job) : Vector Byte n :=
  j.cyclePositions.foldl (fun d k => d.setIfInBounds k (Memory.read mem (j.byteAddress k))) data

/-- The effect of a completed cycle on memory, the job's buffer or the loader's holding (R154). -/
def State.moveCycle (s : State) (j : Job) : State :=
  match j.kind with
  | .write => { s with mem := Memory.writeCells s.mem (cycleCells s j) }
  | .read =>
    match j.buffer with
    | some b => s.setBuffer b { s.buffers[b] with data := placeBytes s.buffers[b].data s.mem j }
    | none => { s with loader := { s.loader with holding := placeBytes s.loader.holding s.mem j } }

/-! ### Releasing entries (R89, R93, R158) -/

/-- What becomes of an entry when its channel halts or is aborted. -/
inductive Release where
  | keep
  | free
  | releasing
  deriving DecidableEq, Repr

/-- An entry freed: it keeps its epoch alone (R98; log 20). -/
def Entry.freed (e : Entry) : Entry := Entry.freeWith e.epoch

/-- An entry made RELEASING: owned by no channel, its timer stopped, its buffer kept (R117). -/
def Entry.released (e : Entry) : Entry := { e with state := .releasing, owner := none, timer := .stopped }

/-- The entry after a release. -/
def Entry.afterRelease (e : Entry) : Release → Entry
  | .keep => e
  | .free => e.freed
  | .releasing => e.released

/-- Whether a job belongs to an entry that a release keeps. -/
def Job.keptBy (f : Fin 16 → Release) (j : Job) : Bool :=
  match j.owner with
  | .entry i => f i == .keep
  | .operation _ => true
  | .loader => true

/-- The buffer after a release: that of a freed entry returns to the Pool. -/
def Buffer.afterRelease (f : Fin 16 → Release) (b : Buffer) : Buffer :=
  match b.owner with
  | some (.entry i) => if f i = .free then { b with owner := none } else b
  | some (.operation _) => b
  | none => b

/-- Releases entries: those freed or made RELEASING leave the Request Queue and lose their unstarted jobs, and
those freed return their buffers (R89, R93, R134, R158). -/
def State.releaseEntries (s : State) (f : Fin 16 → Release) : State :=
  { s with
    entries := Vector.ofFn fun i => s.entries[i].afterRelease (f i)
    requestQueue := s.requestQueue.filter fun i => f i == .keep
    engine := { s.engine with requester := s.engine.requester.filter (Job.keptBy f) }
    buffers := s.buffers.map (Buffer.afterRelease f) }

/-- Frees one entry and returns its buffer (R110, R115, R116, R117). -/
def State.freeEntry (s : State) (i : Fin 16) : State :=
  (s.returnBuffer s.entries[i].buffer).setEntry i s.entries[i].freed

end Sys2Proof.Machine
end

