-- ==== Sys2Proof/Machine/Operands.lean ====
section
/-! DEFINITION. The argument words: where each command's arguments stand in them (R198) and the copies that
WIN_QUERY and CH_QUERY write. -/

namespace Sys2Proof.Machine

/-- The field of `width` bits from bit `low` of a word. -/
def wordField (w : Word) (low width : Nat) : Nat := (w.toNat / 2 ^ low) % 2 ^ width

/-- A flag at one bit of a word. -/
def wordFlag (w : Word) (bit : Nat) : Bool := w.getLsbD bit

/-- A field of `width` bits placed at bit `low`. -/
def placed (low width v : Nat) : Nat := (v % 2 ^ width) * 2 ^ low

/-- A flag placed at one bit. -/
def placedFlag (bit : Nat) (b : Bool) : Nat := placed bit 1 b.toNat

/-- The word whose fields, at places of their own, sum to this. -/
def packed (parts : List Nat) : Word := BitVec.ofNat 32 parts.sum

/-! ### Arguments -/

/-- The window field of ARG0, bits 0 to 7. -/
def argWindow (s : State) : Nat := wordField s.args[0] 0 8

/-- The kind field of WIN_OPEN's ARG0, bits 8 to 15. -/
def argKind (s : State) : Nat := wordField s.args[0] 8 8

/-- The channel field of ARG0, bits 0 to 7. -/
def argChannel (s : State) : Nat := wordField s.args[0] 0 8

/-- The arguments of CH_LOAD (R198). -/
structure LoadArgs where
  target : Nat
  window : Nat
  direction : Nat
  mailbox : Bool
  reload : Bool
  pacing : Bool
  signalPresent : Bool
  remote : Nat
  local' : Nat
  count : Nat
  frameSize : Nat
  depth : Nat
  signalValue : Word
  deriving DecidableEq, Repr

/-- CH_LOAD's arguments as the argument words hold them (R198). -/
def loadArgs (s : State) : LoadArgs where
  target := wordField s.args[0] 8 8
  window := wordField s.args[0] 16 8
  direction := wordField s.args[0] 24 2
  mailbox := wordFlag s.args[0] 26
  reload := wordFlag s.args[0] 27
  pacing := wordFlag s.args[0] 28
  signalPresent := wordFlag s.args[0] 29
  remote := s.args[1].toNat
  local' := s.args[2].toNat
  count := s.args[3].toNat
  frameSize := wordField s.args[4] 0 8
  depth := wordField s.args[4] 8 8
  signalValue := s.args[5]

/-! ### Codes of the query copies (R198) -/

/-- FREE 0, OPEN 1, PARKED 2, CLOSING 3. -/
def WindowState.code : WindowState → Nat
  | .free => 0
  | .opened => 1
  | .parked => 2
  | .closing => 3

/-- MEMORY 0, MAILBOX 1. -/
def WindowKind.code : WindowKind → Nat
  | .memory => 0
  | .mailbox => 1

/-- IDLE 0 to DONE 7. -/
def ChannelState.code : ChannelState → Nat
  | .idle => 0
  | .ready => 1
  | .running => 2
  | .finishing => 3
  | .signalling => 4
  | .halting => 5
  | .faulted => 6
  | .done => 7

/-- PUSH 0, PULL 1. -/
def Direction.code : Direction → Nat
  | .push => 0
  | .pull => 1

/-- The channel fault codes (R197). -/
def FaultCode.code : FaultCode → Nat
  | .none => 0
  | .absent => 1
  | .denied => 2
  | .range => 3
  | .remoteFault => 4
  | .noAnswer => 5
  | .heldTooLong => 6
  | .localFault => 7
  | .aborted => 8

/-! ### The copies -/

/-- The six words of a WIN_QUERY copy (R13, R198). -/
def windowCopy (w : WindowEntry) : Vector Word 6 :=
  #v[packed [placed 0 2 w.state.code, placed 2 1 w.kind.code, placedFlag 3 w.touched, placedFlag 4 w.quietWanted,
      placed 8 4 w.inUse, placed 12 4 w.reserved, placed 16 9 w.slotCount],
    packed [placed 0 24 w.base, placed 24 8 w.head],
    packed [placed 0 24 w.limit],
    w.readGrants,
    w.writeGrants,
    packed [placed 0 16 w.sequence.toNat, placed 16 9 w.committed]]

/-- The six words of a CH_QUERY copy (R72, R198). -/
def channelCopy (c : Channel) : Vector Word 6 :=
  #v[packed [placed 0 25 c.initialCount, placed 25 3 c.state.code, placed 28 4 c.faultCode.code],
    packed [placed 0 24 c.initialRemote, placed 24 7 c.frameSize, placed 31 1 c.direction.code],
    packed [placed 0 24 c.initialLocal, placed 24 5 c.target.toNat, placed 29 3 c.depth],
    packed [placed 0 24 c.faultOffset, placed 24 5 c.window.toNat, placed 29 3 c.live],
    packed [placed 0 25 c.remaining, placedFlag 25 c.mailbox, placedFlag 26 c.reload, placedFlag 27 c.paced,
      placedFlag 28 c.signal.isSome, placedFlag 29 c.armed, placedFlag 30 c.faultAtSignal,
      placedFlag 31 (decide (c.faultOffset = Config.memorySize))],
    c.signal.getD 0]

end Sys2Proof.Machine
end

