-- ==== Sys2Proof/Machine/Flags.lean ====
section
/-! DEFINITION. The status the processor reads: STATUS, NOTICE_COUNT and the notice words (R169, R182, R196,
R197), and the codes of RESULT. -/

namespace Sys2Proof.Machine

/-- STARTING 0, RUNNING 1, START_FAILED 2 (R196). -/
def StationState.code : StationState → Nat
  | .starting => 0
  | .running => 1
  | .startFailed => 2

/-- OFFLINE 0 to SILENT 6 (R196). -/
def LineState.code : LineState → Nat
  | .offline => 0
  | .joining => 1
  | .idle => 2
  | .contending => 3
  | .sending => 4
  | .receiving => 5
  | .silent => 6

/-- MEMORY 1 to RANGE 4 (R196). -/
def StartReason.code : StartReason → Nat
  | .memory => 1
  | .format => 2
  | .checksum => 3
  | .range => 4

/-- The start failure reason's code, none 0 (R196). -/
def reasonCode : Option StartReason → Nat
  | none => 0
  | some r => r.code

/-- NONE 0 to UNKNOWN_COMMAND 6 (R196). -/
def Result.code : Result → Word
  | .none => 0
  | .done => 1
  | .pending => 2
  | .badArg => 3
  | .wrongState => 4
  | .notReady => 5
  | .unknownCommand => 6

/-- The station number STATUS shows: the straps as they stand while RESET# is held, the number sampled
otherwise (R178, R185). -/
def shownNumber (s : State) : Station := if s.pins.resetHeld then s.pins.straps else s.loader.number

/-- STATUS (R182, R196). -/
def statusWord (s : State) : Word :=
  packed [placed 0 2 s.loader.station.code, placed 4 3 s.line.state.code, placed 8 5 (shownNumber s).toNat,
    placed 16 3 (reasonCode s.loader.reason), placedFlag 24 s.notices.hasMarker]

/-- NOTICE_COUNT: the count, marker included (R169, R196). -/
def noticeCount (s : State) : Word := BitVec.ofNat 32 s.notices.records.length

/-- FRAME 0, QUIET 1 (R197). -/
def JoinedHow.code : JoinedHow → Nat
  | .frame => 0
  | .quiet => 1

/-- A record's kind code and its three field words (R197). -/
def Notice.words : Notice → Word × Word × Word × Word
  | .channelEnd c r => (1, BitVec.ofNat 32 c.val, BitVec.ofNat 32 r.toNat, 0)
  | .channelFault c code off sig =>
    (2, packed [placed 0 3 c.val, placedFlag 8 sig], BitVec.ofNat 32 code.code, BitVec.ofNat 32 off)
  | .windowTouched w sender off => (3, BitVec.ofNat 32 w.val, sender.setWidth 32, BitVec.ofNat 32 off)
  | .windowQuiet w => (4, BitVec.ofNat 32 w.val, 0, 0)
  | .windowClosed w => (5, BitVec.ofNat 32 w.val, 0, 0)
  | .mailboxArrival w slot => (6, BitVec.ofNat 32 w.val, BitVec.ofNat 32 slot, 0)
  | .remoteSignal sender value => (7, sender.setWidth 32, value, 0)
  | .localFault w address slot =>
    (8, BitVec.ofNat 32 w.val, BitVec.ofNat 32 address, BitVec.ofNat 32 (slot.getD 256))
  | .lineJoined how winner => (9, BitVec.ofNat 32 how.code, winner.setWidth 32, 0)
  | .lineSilent n => (10, BitVec.ofNat 32 n, 0, 0)
  | .startFailed r => (11, BitVec.ofNat 32 r.code, 0, 0)
  | .overflow => (12, 0, 0, 0)

/-- The head's kind code and field words; an empty queue shows EMPTY, 0, and zeros (R169, R197). -/
def headWords (s : State) : Word × Word × Word × Word :=
  match s.notices.records with
  | [] => (0, 0, 0, 0)
  | n :: _ => n.words

end Sys2Proof.Machine
end

