-- ==== Sys2Proof/Machine/Port.lean ====
section
/-! DEFINITION. The Local Port's part of every command: whether a write to CMD is taken, what it leaves in CMD
and RESULT (R178 to R181), and what a read of each word returns (R177, R196). -/

namespace Sys2Proof.Machine

/-- A write to CMD of a code that names a command, up to its owner's part (R178, R179): ignored while RESET#
is held; NOT_READY while the station is STARTING or START_FAILED; otherwise handed to its owner, whose result
goes to RESULT. -/
def takeCommand (code : Word) (owner : State → State × Result) (s : State) : State :=
  if s.pins.resetHeld then s
  else if s.loader.station = .running then
    { (owner { s with cmd := code }).1 with result := (owner { s with cmd := code }).2 }
  else { s with cmd := code, result := .notReady }

/-- A write to CMD of a code that names no command (R179, case 1). -/
def takeUnknown (code : Word) (s : State) : State :=
  if s.pins.resetHeld then s else { s with cmd := code, result := .unknownCommand }

/-- Pops the Notice Queue's head, unless RESET# is held (R170, R178). -/
def portPop (s : State) : State :=
  if s.pins.resetHeld then s else { s with notices := s.notices.pop }

/-- A write to INT_ENABLE: byte 0 enabled sets the enable from bit 0 (R171, R178, R196). -/
def portEnable (value : Word) (enables : BitVec 4) (s : State) : State :=
  if s.pins.resetHeld then s
  else if enables.getLsbD 0 then { s with notices := s.notices.setEnable (value.getLsbD 0) }
  else s

/-- A word whose enabled bytes are replaced (R177). -/
def mergeBytes (old value : Word) (enables : BitVec 4) : Word :=
  enabledWord value enables ||| enabledWord old (~~~enables)

/-- A write to an argument word at position 1 to 6; any other position ignores it (R177, R178, R196). -/
def portArgument (position : Nat) (value : Word) (enables : BitVec 4) (s : State) : State :=
  if s.pins.resetHeld then s
  else if h : 1 ≤ position ∧ position ≤ 6 then
    { s with args := s.args.set (position - 1) (mergeBytes (s.args[position - 1]) value enables) }
  else s

/-- What a read at a port address returns (R177, R196); a read changes no state. -/
def portRead (address : BitVec 24) (s : State) : Word :=
  match portPosition address with
  | 0 => s.cmd
  | 1 => s.args[0]
  | 2 => s.args[1]
  | 3 => s.args[2]
  | 4 => s.args[3]
  | 5 => s.args[4]
  | 6 => s.args[5]
  | 7 => s.result.code
  | 8 => statusWord s
  | 9 => noticeCount s
  | 10 => (headWords s).1
  | 11 => (headWords s).2.1
  | 12 => (headWords s).2.2.1
  | 13 => (headWords s).2.2.2
  | 15 => if s.notices.enable then 1 else 0
  | _ => 0

end Sys2Proof.Machine
end

