-- ==== Sys2Proof/Machine/Reports.lean ====
section
/-! DEFINITION. What the Outstanding Request Table tells a channel, and what the channel does with it: the end
of a pass and reload (R83 to R86), halting and its withdrawal (R88 to R91), and how an entry completes, fails, is
freed or goes back to the Request Queue (R101, R102, R106, R110, R115, R116). -/

namespace Sys2Proof.Machine

/-! ### The channel's side -/

/-- The end of a pass: DONE, or a reload into READY or, for a paced channel, RUNNING with pace armed no; and
CHANNEL_END (R85, R86). -/
def State.endOfPass (s : State) (c : Fin 8) : State :=
  if s.channels[c].reload then
    (s.setChannel c
      { s.channels[c] with
        state := if s.channels[c].paced then .running else .ready
        currentRemote := s.channels[c].initialRemote
        currentLocal := s.channels[c].initialLocal
        remaining := s.channels[c].initialCount
        armed := if s.channels[c].paced then false else s.channels[c].armed }).post (.channelEnd c true)
  else (s.setChannel c { s.channels[c] with state := .done }).post (.channelEnd c false)

/-- A channel's live entries fall by 1 (R80). -/
def State.lowerLive (s : State) (c : Fin 8) : State :=
  s.setChannel c { s.channels[c] with live := s.channels[c].live - 1 }

/-- A HALTING channel with no live entries enters FAULTED and posts CHANNEL_FAULT (R91). -/
def State.settleHalting (s : State) (c : Fin 8) : State :=
  if s.channels[c].state = .halting ∧ s.channels[c].live = 0 then
    (s.setChannel c { s.channels[c] with state := .faulted }).post
      (.channelFault c s.channels[c].faultCode s.channels[c].faultOffset s.channels[c].faultAtSignal)
  else s

/-- Whether an entry's unstarted job is in the requester list. -/
def jobListed (s : State) (i : Fin 16) : Bool := s.engine.requester.any fun j => j.owner == .entry i

/-- Whether an entry is the frame in hand in CONTENDING (R134). -/
def inHandContending (s : State) (i : Fin 16) : Bool :=
  s.line.state == .contending &&
  match s.line.hand with
  | some h => h.owner == .request i
  | none => false

/-- What a halting channel's withdrawal does with an entry (R89 step 2, R134). -/
def haltRelease (s : State) (c : Fin 8) (i : Fin 16) : Release :=
  if s.entries[i].owner = some c then
    match s.entries[i].state with
    | .staging => if jobListed s i then .free else .keep
    | .queued => if inHandContending s i then .releasing else .free
    | .holding => .free
    | .free => .keep
    | .sending => .keep
    | .sent => .keep
    | .landing => .keep
    | .releasing => .keep
  else .keep

/-- What CH_ABORT does with an entry (R93, R134). -/
def abortRelease (s : State) (c : Fin 8) (i : Fin 16) : Release :=
  if s.entries[i].owner = some c then
    match s.entries[i].state with
    | .staging => if jobListed s i then .free else .releasing
    | .queued => if inHandContending s i then .releasing else .free
    | .sending => .releasing
    | .sent => .free
    | .holding => .free
    | .landing => if jobListed s i then .free else .releasing
    | .free => .keep
    | .releasing => .keep
  else .keep

/-- How many entries a release takes from their channel. -/
def releasedCount (f : Fin 16 → Release) : Nat := (List.finRange 16).countP fun i => f i != .keep

/-- The first final failure of a channel (R89). -/
def State.haltChannel (s : State) (c : Fin 8) (code : FaultCode) (offset : Nat) (atSignal : Bool) : State :=
  (s.releaseEntries (haltRelease s c)).setChannel c
    { s.channels[c] with
      state := .halting
      faultCode := code
      faultOffset := offset
      faultAtSignal := atSignal
      live := s.channels[c].live - 1 - releasedCount (haltRelease s c) }

/-- A report that an owned entry completed OK (R83, R84, R90). -/
def State.reportComplete (s : State) (c : Fin 8) : State :=
  match s.channels[c].state with
  | .finishing =>
    if s.channels[c].live - 1 = 0 then
      if s.channels[c].signal.isSome then
        s.setChannel c { s.channels[c] with live := 0, state := .signalling }
      else (s.lowerLive c).endOfPass c
    else s.lowerLive c
  | .signalling => (s.lowerLive c).endOfPass c
  | .halting => (s.lowerLive c).settleHalting c
  | .idle => s.lowerLive c
  | .ready => s.lowerLive c
  | .running => s.lowerLive c
  | .faulted => s.lowerLive c
  | .done => s.lowerLive c

/-- A report that an owned entry failed finally: the first one halts the channel, a later one only settles
its entry (R89, R90). -/
def State.reportFailure (s : State) (c : Fin 8) (code : FaultCode) (offset : Nat) (atSignal : Bool) : State :=
  match s.channels[c].state with
  | .running => (s.haltChannel c code offset atSignal).settleHalting c
  | .finishing => (s.haltChannel c code offset atSignal).settleHalting c
  | .signalling => (s.haltChannel c code offset atSignal).settleHalting c
  | .halting => (s.lowerLive c).settleHalting c
  | .idle => s.lowerLive c
  | .ready => s.lowerLive c
  | .faulted => s.lowerLive c
  | .done => s.lowerLive c

/-- A report that an entry of a HALTING channel was freed (R90, R116). -/
def State.reportFreed (s : State) (c : Fin 8) : State := (s.lowerLive c).settleHalting c

/-! ### The entry's side -/

/-- Whether an entry's owner is HALTING (R116). -/
def ownerHalting (s : State) (i : Fin 16) : Bool :=
  match s.entries[i].owner with
  | none => false
  | some c => s.channels[c].state == .halting

/-- The entry completes (R110, R112). -/
def State.completeEntry (s : State) (i : Fin 16) : State :=
  match s.entries[i].owner with
  | none => s.freeEntry i
  | some c => (s.freeEntry i).reportComplete c

/-- The entry fails finally (R115). -/
def State.failEntry (s : State) (i : Fin 16) (code : FaultCode) : State :=
  match s.entries[i].owner with
  | none => s.freeEntry i
  | some c =>
    (s.freeEntry i).reportFailure c code s.entries[i].remoteOffset (decide (s.entries[i].kind = .signal))

/-- The entry is freed with a freed report (R116). -/
def State.dropEntry (s : State) (i : Fin 16) : State :=
  match s.entries[i].owner with
  | none => s.freeEntry i
  | some c => (s.freeEntry i).reportFreed c

/-- The entry becomes QUEUED at the tail of the Request Queue with its timer stopped (R102). -/
def State.queueTail (s : State) (i : Fin 16) (e : Entry) : State :=
  { s.setEntry i { e with state := .queued, timer := .stopped } with requestQueue := s.requestQueue ++ [i] }

/-- The entry becomes QUEUED at the head of the Request Queue (R102, R104). -/
def State.queueHead (s : State) (i : Fin 16) : State :=
  { s.setEntry i { s.entries[i] with state := .queued } with requestQueue := i :: s.requestQueue }

/-- NOT_TAKEN or a response timeout: one more retry and back to the queue, NO_ANSWER at the retry limit, or
freed when the owner is HALTING (R106, R107, R116). -/
def State.retryEntry (s : State) (i : Fin 16) : State :=
  if s.entries[i].retry < s.loader.config.retryLimit then
    if ownerHalting s i then s.dropEntry i
    else s.queueTail i { s.entries[i] with retry := s.entries[i].retry + 1 }
  else s.failEntry i .noAnswer

/-- PARKED or FULL: one more hold, HELD_TOO_LONG at the hold limit, or freed when the owner is HALTING (R113,
R116). -/
def State.holdEntry (s : State) (i : Fin 16) : State :=
  if s.entries[i].hold < s.loader.config.holdLimit then
    if ownerHalting s i then s.dropEntry i
    else
      s.setEntry i
        { s.entries[i] with
          state := .holding
          hold := s.entries[i].hold + 1
          retry := 0
          timer := .holdEnd (10 * s.loader.config.holdInterval) }
  else s.failEntry i .heldTooLong

end Sys2Proof.Machine
end

