-- ==== Sys2Proof/Machine/Channels.lean ====
section
/-! DEFINITION. The Channel Unit: its commands (R67 to R72, R92), the formation arbiter and the two formations
(R73 to R78, R84), and the PACE inputs (R81, R87). -/

namespace Sys2Proof.Machine

/-! ### Commands -/

/-- R67 steps 1 and 2: the channel argument, then the record's state; then the change `act` makes. -/
def onChannel (taken : ChannelState → Bool) (act : Fin 8 → Channel → State → State × Result) (s : State) :
    State × Result :=
  if h : argChannel s < 8 then
    if taken s.channels[argChannel s].state then act ⟨argChannel s, h⟩ s.channels[argChannel s] s
    else (s, .wrongState)
  else (s, .badArg)

/-- The states in which CH_LOAD is taken (section 4.3). -/
def ChannelState.loadable : ChannelState → Bool
  | .idle => true
  | .ready => true
  | .running => false
  | .finishing => false
  | .signalling => false
  | .halting => false
  | .faulted => true
  | .done => true

/-- The states in which CH_ABORT is taken (section 4.3). -/
def ChannelState.active : ChannelState → Bool
  | .idle => false
  | .ready => false
  | .running => true
  | .finishing => true
  | .signalling => true
  | .halting => true
  | .faulted => false
  | .done => false

/-- CH_LOAD's checks (R68): all of them answer BAD_ARG. -/
def loadAccepted (own : Station) (c : Fin 8) (a : LoadArgs) : Bool :=
  decide (a.direction ≤ 1) && decide (a.target ≤ 31) && decide (a.target ≠ own.toNat) && decide (a.window ≤ 31) &&
  decide (a.remote < Config.memorySize) && decide (a.local' < Config.memorySize) &&
  decide (a.count ≤ Config.memorySize) && (decide (a.count ≠ 0) || a.signalPresent) &&
  decide (1 ≤ a.frameSize) && decide (a.frameSize ≤ 64) && decide (1 ≤ a.depth) && decide (a.depth ≤ 4) &&
  (!a.pacing || decide (c.val ≤ 3)) && !(a.mailbox && decide (a.direction = 1)) &&
  decide (a.local' + a.count ≤ Config.memorySize) && decide (a.remote + a.count ≤ Config.memorySize)

/-- The record CH_LOAD fills (R62, R69). -/
def loadedChannel (a : LoadArgs) : Channel where
  state := .ready
  direction := if a.direction = 0 then .push else .pull
  target := BitVec.ofNat 5 a.target
  window := BitVec.ofNat 5 a.window
  mailbox := a.mailbox
  initialRemote := a.remote
  currentRemote := a.remote
  initialLocal := a.local'
  currentLocal := a.local'
  initialCount := a.count
  remaining := a.count
  frameSize := a.frameSize
  depth := if a.mailbox then 1 else a.depth
  reload := a.reload
  paced := a.pacing
  signal := if a.signalPresent then some a.signalValue else none
  live := 0
  armed := true
  faultCode := .none
  faultOffset := 0
  faultAtSignal := false

/-- CH_LOAD (R67 to R69). -/
def chLoad : State → State × Result :=
  onChannel ChannelState.loadable fun c _ s =>
    if loadAccepted s.loader.number c (loadArgs s) then (s.setChannel c (loadedChannel (loadArgs s)), .done)
    else (s, .badArg)

/-- CH_START (R70). -/
def chStart : State → State × Result :=
  onChannel (fun st => st == .ready) fun c r s =>
    (s.setChannel c { r with state := if r.initialCount = 0 then .signalling else .running }, .done)

/-- The fault offset an abort reports (R92). -/
def abortOffset (r : Channel) : Nat := if r.state = .halting then r.faultOffset else r.currentRemote

/-- The at-signal value an abort reports (R92). -/
def abortAtSignal (r : Channel) : Bool :=
  if r.state = .halting then r.faultAtSignal else decide (r.state = .signalling)

/-- CH_ABORT (R92, R93). -/
def chAbort : State → State × Result :=
  onChannel ChannelState.active fun c r s =>
    (((s.releaseEntries (abortRelease s c)).setChannel c
      { r with
        state := .faulted
        faultCode := .aborted
        faultOffset := abortOffset r
        faultAtSignal := abortAtSignal r
        live := 0 }).post (.channelFault c .aborted (abortOffset r) (abortAtSignal r)), .done)

/-- CH_CLEAR (R71). -/
def chClear : State → State × Result :=
  onChannel (fun st => st == .done || st == .faulted) fun c r s =>
    (s.setChannel c { r with state := .idle, faultCode := .none, faultOffset := 0, faultAtSignal := false }, .done)

/-- CH_QUERY (R72). -/
def chQuery : State → State × Result :=
  onChannel (fun _ => true) fun _ r s => ({ s with args := channelCopy r }, .done)

/-- CH_LOAD, code 16. -/
def execChLoad (s : State) : Host.Outcome State Fault Refusal := .next (takeCommand 16 chLoad s)

/-- CH_START, code 17. -/
def execChStart (s : State) : Host.Outcome State Fault Refusal := .next (takeCommand 17 chStart s)

/-- CH_ABORT, code 18. -/
def execChAbort (s : State) : Host.Outcome State Fault Refusal := .next (takeCommand 18 chAbort s)

/-- CH_CLEAR, code 19. -/
def execChClear (s : State) : Host.Outcome State Fault Refusal := .next (takeCommand 19 chClear s)

/-- CH_QUERY, code 20. -/
def execChQuery (s : State) : Host.Outcome State Fault Refusal := .next (takeCommand 20 chQuery s)

/-! ### Eligibility and the arbiter (R74, R75) -/

/-- The level of the PACE input of a channel; channels 4 to 7 have none (R81). -/
def paceLevel (s : State) (c : Fin 8) : Bool := s.pins.pace.toList.getD c.val false

/-- The lowest-numbered FREE entry (R98). -/
def freeIndex (s : State) : Option (Fin 16) := (List.finRange 16).find? fun i => s.entries[i].state == .free

/-- Conditions 1 to 6 of R74. -/
def eligibleData (s : State) (c : Fin 8) : Bool :=
  s.channels[c].state == .running && decide (0 < s.channels[c].remaining) &&
  decide (s.channels[c].live < s.channels[c].depth) &&
  (!s.channels[c].paced || (paceLevel s c && s.channels[c].armed)) &&
  (freeIndex s).isSome && decide (requesterHeld s < Config.requesterBuffers)

/-- Eligible for the completion signal: SIGNALLING, the signal not yet formed in this pass (no live entry,
log 18) and a FREE entry (R74, R84). -/
def eligibleSignal (s : State) (c : Fin 8) : Bool :=
  s.channels[c].state == .signalling && decide (s.channels[c].live = 0) && (freeIndex s).isSome

/-- The channels in the order in which the arbiter considers them: upward from the one after the pointer,
wrapping from 7 to 0 (R75). -/
def arbiterOrder (pointer : Fin 8) : List (Fin 8) := (List.finRange 8).map fun k => pointer + 1 + k

/-- The channel the arbiter serves next (R75). -/
def arbiterChoice (s : State) : Option (Fin 8) :=
  (arbiterOrder s.pointer).find? fun c => eligibleData s c || eligibleSignal s c

/-! ### Formation (R76 to R78, R84, R100) -/

/-- The bytes of the next data request (R73, R76). -/
def Channel.nextLength (r : Channel) : Nat := min r.frameSize r.remaining

/-- The channel after the formation of a data request (R76). -/
def Channel.afterFormation (r : Channel) : Channel :=
  { r with
    currentRemote := r.currentRemote + r.nextLength
    currentLocal := r.currentLocal + r.nextLength
    remaining := r.remaining - r.nextLength
    live := r.live + 1
    state := if r.remaining - r.nextLength = 0 then .finishing else r.state }

/-- The entry a data request is given (R98, R100): the next epoch, STAGING for a PUT and QUEUED for a GET. -/
def dataEntry (e : Entry) (c : Fin 8) (r : Channel) (b : Option (Fin 24)) : Entry where
  state := match r.direction with
    | .push => .staging
    | .pull => .queued
  epoch := e.epoch + 1
  owner := some c
  kind := match r.direction with
    | .push => .put
    | .pull => .get
  target := r.target
  window := r.window
  mailbox := r.mailbox
  remoteOffset := r.currentRemote
  localAddress := r.currentLocal
  length := r.nextLength
  signalValue := 0
  buffer := b
  retry := 0
  hold := 0
  timer := .stopped

/-- The entry a completion signal is given (R84, R100); its remote offset is 0, for a SIGNAL carries none
(log 19). -/
def signalEntry (e : Entry) (c : Fin 8) (r : Channel) : Entry :=
  { Entry.freeWith (e.epoch + 1) with
    state := .queued
    owner := some c
    kind := .signal
    target := r.target
    signalValue := r.signal.getD 0 }

/-- The staging read of a PUSH entry (R77). -/
def stagingJob (i : Fin 16) (e : Entry) : Job :=
  Job.listed .read .requester e.localAddress e.length e.buffer (.entry i) none

/-- A formed entry goes on: a PUT's staging read is queued, a GET joins the Request Queue (R77, R78). -/
def State.launch (s : State) (i : Fin 16) (e : Entry) : State :=
  match e.kind with
  | .put => s.queueRequester (stagingJob i e)
  | .get => { s with requestQueue := s.requestQueue ++ [i] }
  | .signal => { s with requestQueue := s.requestQueue ++ [i] }

/-- The formation of a data request for channel `c` in entry `i` (R76 to R78, R100). -/
def State.formData (s : State) (c : Fin 8) (i : Fin 16) : State :=
  (({ (s.giveBuffer (freeBuffer s) (.entry i)).setEntry i
        (dataEntry s.entries[i] c s.channels[c] (freeBuffer s)) with pointer := c }).setChannel c
      s.channels[c].afterFormation).launch i (dataEntry s.entries[i] c s.channels[c] (freeBuffer s))

/-- The formation of channel `c`'s completion signal in entry `i` (R84, R100). -/
def State.formSignal (s : State) (c : Fin 8) (i : Fin 16) : State :=
  (({ s.setEntry i (signalEntry s.entries[i] c s.channels[c]) with pointer := c }).setChannel c
      { s.channels[c] with live := s.channels[c].live + 1 }).launch i (signalEntry s.entries[i] c s.channels[c])

/-- FORMATION: the arbiter's choice forms a data request; when it chooses no channel, or a channel that is to
form its signal, the event does not arise (R75, R76; log 1, log 17). -/
def execFormation (s : State) : Host.Outcome State Fault Refusal :=
  match arbiterChoice s, freeIndex s with
  | some c, some i => if eligibleData s c then .next (s.formData c i) else .next s
  | some _, none => .next s
  | none, _ => .next s

/-- SIGNAL_FORMATION: the arbiter's choice forms its completion signal (R75, R84; log 1, log 17). -/
def execSignalFormation (s : State) : Host.Outcome State Fault Refusal :=
  match arbiterChoice s, freeIndex s with
  | some c, some i => if eligibleSignal s c then .next (s.formSignal c i) else .next s
  | some _, none => .next s
  | none, _ => .next s

/-! ### The PACE inputs (R81, R87) -/

/-- The channel that a PACE input paces (R81). -/
def pacedChannel (n : Fin 4) : Fin 8 := n.castLE (by decide)

/-- A channel whose PACE input changes to asserted: a paced RUNNING channel with pace armed no is armed, and
one loaded with count 0 enters SIGNALLING (R81, R87). -/
def Channel.afterAssertion (r : Channel) : Channel :=
  if r.paced ∧ r.state = .running ∧ r.armed = false then
    { r with armed := true, state := if r.initialCount = 0 then .signalling else .running }
  else r

/-- PACE_ASSERTED (R81): an input already asserted does not change. -/
def execPaceAsserted (n : Fin 4) (s : State) : Host.Outcome State Fault Refusal :=
  if s.pins.pace[n] then .next s
  else
    .next
      (({ s with pins := { s.pins with pace := s.pins.pace.set n true } }).setChannel (pacedChannel n)
        s.channels[pacedChannel n].afterAssertion)

/-- PACE_DEASSERTED (R81): the level alone changes. -/
def execPaceDeasserted (n : Fin 4) (s : State) : Host.Outcome State Fault Refusal :=
  .next { s with pins := { s.pins with pace := s.pins.pace.set n false } }

end Sys2Proof.Machine
end

