-- ==== Sys2Proof/Machine/Outstanding.lean ====
section
/-! DEFINITION. The Outstanding Request Table: the frame sent for an entry (R103), send results (R105, R106),
responses (R109 to R113), the two timers (R107, R114), and what it does at the ends of staging reads and landing
writes (R101, R112, R116, R117). -/

namespace Sys2Proof.Machine

/-! ### Frames and send results -/

/-- The offset a request frame carries: 0 with the mailbox flag, the remote offset otherwise (R63, R103). -/
def Entry.frameOffset (e : Entry) : BitVec 24 := if e.mailbox then 0 else BitVec.ofNat 24 e.remoteOffset

/-- The tag of an entry (R98). -/
def entryTag (i : Fin 16) (e : Entry) : Tag := ⟨BitVec.ofFin i, e.epoch⟩

/-- The frame sent for an entry (R103, R191). -/
def requestBody (s : State) (i : Fin 16) : FrameBody :=
  match s.entries[i].kind with
  | .put =>
    .put s.entries[i].target s.loader.config.incarnation (entryTag i s.entries[i]) s.entries[i].window
      s.entries[i].frameOffset (BitVec.ofNat 7 s.entries[i].length)
      (bufferBytes s s.entries[i].buffer s.entries[i].length)
  | .get =>
    .get s.entries[i].target s.loader.config.incarnation (entryTag i s.entries[i]) s.entries[i].window
      s.entries[i].frameOffset (BitVec.ofNat 7 s.entries[i].length)
  | .signal =>
    .signal s.entries[i].target s.loader.config.incarnation (entryTag i s.entries[i]) s.entries[i].signalValue

/-- A won round: the entry leaves the queue and becomes SENDING; one made RELEASING stays so (R104, R134). -/
def State.sendEntry (s : State) (i : Fin 16) : State :=
  if s.entries[i].state = .queued then
    { s.setEntry i { s.entries[i] with state := .sending } with
      requestQueue := s.requestQueue.filter fun k => k != i }
  else s

/-- The acceptance result of a request frame sent to its end (R105, R106, R117). -/
def State.entrySent (s : State) (i : Fin 16) (taken : Bool) : State :=
  if s.entries[i].state = .releasing then s.freeEntry i
  else if taken then
    s.setEntry i
      { s.entries[i] with state := .sent, timer := .responseDeadline (20 * s.loader.config.responseLimit) }
  else s.retryEntry i

/-- A frame abandoned for a clash: back to the head of the queue, or freed when the entry is RELEASING or its
owner HALTING (R104, R116, R117). -/
def State.entryClashed (s : State) (i : Fin 16) : State :=
  if s.entries[i].state = .releasing then s.freeEntry i
  else if ownerHalting s i then s.dropEntry i
  else s.queueHead i

/-- A lost round: nothing for a QUEUED entry; a RELEASING one is freed (R104, R117, R134). -/
def State.entryRoundLost (s : State) (i : Fin 16) : State :=
  if s.entries[i].state = .releasing then s.freeEntry i else s

/-! ### Job ends -/

/-- The end of an entry's staging read or landing write (R101, R112, R116, R117, R159). -/
def State.entryJobEnd (s : State) (i : Fin 16) (faulted : Bool) : State :=
  match s.entries[i].state with
  | .releasing => s.freeEntry i
  | .staging =>
    if faulted then s.failEntry i .localFault
    else if ownerHalting s i then s.dropEntry i
    else s.queueTail i s.entries[i]
  | .landing => if faulted then s.failEntry i .localFault else s.completeEntry i
  | .free => s
  | .queued => s
  | .sending => s
  | .sent => s
  | .holding => s

/-! ### Responses -/

/-- A taken response: a DONE with one of the seven outcomes, or a DATA (R26). -/
inductive Answer where
  | done (tag : Tag) (outcome : DoneOutcome)
  | data (tag : Tag) (payload : List Byte)
  deriving DecidableEq, Repr

/-- The tag an answer carries. -/
def Answer.tag : Answer → Tag
  | .done t _ => t
  | .data t _ => t

/-- Whether an answer's form suits an entry (R109, third condition). -/
def Answer.suits (a : Answer) (e : Entry) : Bool :=
  match a, e.kind with
  | .done _ _, .put => true
  | .done _ _, .signal => true
  | .done _ o, .get => o != .ok
  | .data _ p, .get => p.length == e.length
  | .data _ _, .put => false
  | .data _ _, .signal => false

/-- The states in which responses are matched (R109). -/
def EntryState.matchable : EntryState → Bool
  | .queued => true
  | .sent => true
  | .holding => true
  | .free => false
  | .staging => false
  | .sending => false
  | .landing => false
  | .releasing => false

/-- The entry a tag names (R98). -/
def tagEntry (t : Tag) : Fin 16 := t.entry.toFin

/-- Whether an answer matches the entry its tag names (R109). -/
def answerMatches (s : State) (a : Answer) : Bool :=
  s.entries[tagEntry a.tag].epoch == a.tag.epoch && s.entries[tagEntry a.tag].state.matchable &&
    a.suits s.entries[tagEntry a.tag]

/-- A matched entry leaves the Request Queue and its timer stops (R109). -/
def State.unqueue (s : State) (i : Fin 16) : State :=
  { s.setEntry i { s.entries[i] with timer := .stopped } with
    requestQueue := s.requestQueue.filter fun k => k != i }

/-- The landing write of a GET's entry (R111). -/
def landingJob (i : Fin 16) (e : Entry) : Job :=
  Job.listed .write .requester e.localAddress e.length e.buffer (.entry i) none

/-- A matching DATA: the payload goes to the landing buffer and the landing write is queued (R111). -/
def State.landData (s : State) (i : Fin 16) (payload : List Byte) : State :=
  ((s.fillBuffer s.entries[i].buffer payload).setEntry i
    { s.entries[i] with state := .landing }).queueRequester (landingJob i s.entries[i])

/-- What a matching DONE does (R110, R113, R115). -/
def State.settleDone (s : State) (i : Fin 16) (o : DoneOutcome) : State :=
  match o with
  | .ok => s.completeEntry i
  | .absent => s.failEntry i .absent
  | .denied => s.failEntry i .denied
  | .range => s.failEntry i .range
  | .parked => s.holdEntry i
  | .full => s.holdEntry i
  | .fault => s.failEntry i .remoteFault

/-- A taken response: matched, or discarded without a trace (R109). -/
def State.takeAnswer (s : State) (a : Answer) : State :=
  if answerMatches s a then
    match a with
    | .done t o => (s.unqueue (tagEntry t)).settleDone (tagEntry t) o
    | .data t p => (s.unqueue (tagEntry t)).landData (tagEntry t) p
  else s

/-! ### Timers -/

/-- RESPONSE_TIMER_EXPIRY of entry `i` (R107, R116): of a SENT entry whose deadline runs; for any other entry
the event does not arise (log 1). -/
def execResponseTimerExpiry (i : Fin 16) (s : State) : Host.Outcome State Fault Refusal :=
  match s.entries[i].state, s.entries[i].timer with
  | .sent, .responseDeadline _ => .next (s.retryEntry i)
  | _, _ => .next s

/-- HOLD_TIMER_EXPIRY of entry `i` (R114): of a HOLDING entry whose hold runs; for any other entry the event
does not arise (log 1). -/
def execHoldTimerExpiry (i : Fin 16) (s : State) : Host.Outcome State Fault Refusal :=
  match s.entries[i].state, s.entries[i].timer with
  | .holding, .holdEnd _ => .next (s.queueTail i s.entries[i])
  | _, _ => .next s

end Sys2Proof.Machine
end

