-- ==== Sys2Proof/Machine/Windows.lean ====
section
/-! DEFINITION. The Window Table: its commands (R4 to R13), MBOX_CONSUME (R56), the admission of a request
(R14 to R18, R51) and the execution end with its commit and drain completion (R19, R53, R54). -/

namespace Sys2Proof.Machine

/-! ### Commands -/

/-- R4 steps 1 and 2 for a window command: the window argument, then the entry's state; then the change
`act` makes. -/
def onWindow (taken : WindowState → Bool) (act : Fin 32 → WindowEntry → State → State × Result) (s : State) :
    State × Result :=
  if h : argWindow s < 32 then
    if taken s.windows[argWindow s].state then act ⟨argWindow s, h⟩ s.windows[argWindow s] s
    else (s, .wrongState)
  else (s, .badArg)

/-- The states in which WIN_CLOSE, WIN_GRANTS and MBOX_CONSUME are taken (section 1.2). -/
def WindowState.serving : WindowState → Bool
  | .free => false
  | .opened => true
  | .parked => true
  | .closing => false

/-- WIN_OPEN's checks of kind, base and extent (R5). -/
def openAccepted (kind base extent : Nat) : Bool :=
  if kind = 0 then decide (base < Config.memorySize) && decide (base + extent < Config.memorySize)
  else if kind = 1 then
    decide (base % 8 = 0) && decide (2 ≤ extent) && decide (extent ≤ 256) &&
      decide (base + extent * Config.mailboxSlotBytes ≤ Config.memorySize)
  else false

/-- The entry WIN_OPEN fills (R6). -/
def openedEntry (kind base extent : Nat) (readGrants writeGrants : Word) : WindowEntry :=
  { WindowEntry.cleared with
    state := .opened
    kind := if kind = 1 then .mailbox else .memory
    base := base
    limit := if kind = 1 then 0 else extent
    slotCount := if kind = 1 then extent else 0
    readGrants := readGrants
    writeGrants := writeGrants }

/-- WIN_OPEN (R4 to R6). -/
def winOpen : State → State × Result :=
  onWindow (fun st => st == .free) fun i _ s =>
    if openAccepted (argKind s) s.args[1].toNat s.args[2].toNat then
      (s.setWindow i (openedEntry (argKind s) s.args[1].toNat s.args[2].toNat s.args[3] s.args[4]), .done)
    else (s, .badArg)

/-- WIN_PARK (R8). -/
def winPark : State → State × Result :=
  onWindow (fun st => st == .opened) fun i w s =>
    if w.inUse = 0 then (s.setWindow i { w with state := .parked }, .done)
    else (s.setWindow i { w with state := .parked, quietWanted := true }, .pending)

/-- WIN_UNPARK (R9). -/
def winUnpark : State → State × Result :=
  onWindow (fun st => st == .parked) fun i w s =>
    (s.setWindow i { w with state := .opened, touched := false, quietWanted := false }, .done)

/-- WIN_CLOSE (R10, R11). -/
def winClose : State → State × Result :=
  onWindow WindowState.serving fun i w s =>
    if w.inUse = 0 then (s.setWindow i .cleared, .done)
    else (s.setWindow i { w with state := .closing, quietWanted := true, touched := false }, .pending)

/-- WIN_GRANTS (R12). -/
def winGrants : State → State × Result :=
  onWindow WindowState.serving fun i w s =>
    (s.setWindow i { w with readGrants := s.args[3], writeGrants := s.args[4] }, .done)

/-- WIN_QUERY (R13). -/
def winQuery : State → State × Result :=
  onWindow (fun _ => true) fun _ w s => ({ s with args := windowCopy w }, .done)

/-- MBOX_CONSUME (R56): its kind and count checks follow R4's first two. -/
def mboxConsume : State → State × Result :=
  onWindow WindowState.serving fun i w s =>
    if w.kind = .mailbox ∧ 1 ≤ s.args[1].toNat ∧ s.args[1].toNat ≤ w.committed then
      (s.setWindow i
        { w with head := (w.head + s.args[1].toNat) % w.slotCount, committed := w.committed - s.args[1].toNat }, .done)
    else (s, .badArg)

/-- WIN_OPEN, code 1. -/
def execWinOpen (s : State) : Host.Outcome State Fault Refusal := .next (takeCommand 1 winOpen s)

/-- WIN_PARK, code 2. -/
def execWinPark (s : State) : Host.Outcome State Fault Refusal := .next (takeCommand 2 winPark s)

/-- WIN_UNPARK, code 3. -/
def execWinUnpark (s : State) : Host.Outcome State Fault Refusal := .next (takeCommand 3 winUnpark s)

/-- WIN_CLOSE, code 4. -/
def execWinClose (s : State) : Host.Outcome State Fault Refusal := .next (takeCommand 4 winClose s)

/-- WIN_GRANTS, code 5. -/
def execWinGrants (s : State) : Host.Outcome State Fault Refusal := .next (takeCommand 5 winGrants s)

/-- WIN_QUERY, code 6. -/
def execWinQuery (s : State) : Host.Outcome State Fault Refusal := .next (takeCommand 6 winQuery s)

/-- MBOX_CONSUME, code 7. -/
def execMboxConsume (s : State) : Host.Outcome State Fault Refusal := .next (takeCommand 7 mboxConsume s)

/-! ### Admission (R14) -/

/-- The Window Table's six checks, in the order of R14: the refusal's outcome, or none when the request
passes. `write` says whether it is a PUT. -/
def windowRefusal (w : WindowEntry) (write : Bool) (sender : Station) (offset length : Nat) : Option DoneOutcome :=
  if w.state.serving = false then some .absent
  else if write = false ∧ w.kind = .mailbox then some .denied
  else if inGrants (if write then w.writeGrants else w.readGrants) sender = false then some .denied
  else if (match w.kind with
      | .memory => decide (w.limit + 1 < offset + length)
      | .mailbox => decide (offset ≠ 0)) then some .range
  else if w.state = .parked then some .parked
  else if w.kind = .mailbox ∧ w.committed + w.reserved = w.slotCount then some .full
  else none

/-- A refusal's only trace on the window: the first PARKED refusal of an episode sets the touched flag and
posts WINDOW_TOUCHED (R17). -/
def State.touchWindow (s : State) (i : Fin 32) (sender : Station) (offset : Nat) : State :=
  if s.windows[i].touched then s
  else (s.setWindow i { s.windows[i] with touched := true }).post (.windowTouched i sender offset)

/-- The slot a mailbox PUT reserves (R51, step 1). -/
def WindowEntry.nextSlot (w : WindowEntry) : Nat := (w.head + w.committed + w.reserved) % w.slotCount

/-- The sequence number its header will carry (R51, step 2). -/
def WindowEntry.nextSequence (w : WindowEntry) : BitVec 16 := w.sequence + BitVec.ofNat 16 w.reserved + 1

/-- The address of a mailbox slot (R49). -/
def WindowEntry.slotAddress (w : WindowEntry) (slot : Nat) : Nat := w.base + slot * Config.mailboxSlotBytes

/-- The entry after an admission: the in-use count rises, and a mailbox reserves a slot (R18, R51). -/
def WindowEntry.afterAdmission (w : WindowEntry) : WindowEntry :=
  match w.kind with
  | .memory => { w with inUse := w.inUse + 1 }
  | .mailbox => { w with inUse := w.inUse + 1, reserved := w.reserved + 1 }

/-! ### Execution end (R19, R53, R54) -/

/-- The entry after the commit of its oldest reserved slot (R53, step 1). -/
def WindowEntry.committedOne (w : WindowEntry) : WindowEntry :=
  { w with committed := w.committed + 1, reserved := w.reserved - 1, sequence := w.sequence + 1 }

/-- The commit of a mailbox slot, with its arrival notice (R53 steps 1 and 2, R54, R61). -/
def State.commitSlot (s : State) (i : Fin 32) (slot : Nat) : State :=
  if s.windows[i].committed = 0 ∧ s.windows[i].state.serving then
    (s.setWindow i s.windows[i].committedOne).post (.mailboxArrival i slot)
  else s.setWindow i s.windows[i].committedOne

/-- The in-use count falls by 1 and, at 0, the drain completes (R19). -/
def State.endUse (s : State) (i : Fin 32) : State :=
  if 1 < s.windows[i].inUse then s.setWindow i { s.windows[i] with inUse := s.windows[i].inUse - 1 }
  else
    match s.windows[i].state with
    | .parked =>
      if s.windows[i].quietWanted then
        (s.setWindow i { s.windows[i] with inUse := 0, quietWanted := false }).post (.windowQuiet i)
      else s.setWindow i { s.windows[i] with inUse := 0 }
    | .closing => (s.setWindow i .cleared).post (.windowClosed i)
    | .opened => s.setWindow i { s.windows[i] with inUse := 0 }
    | .free => s.setWindow i { s.windows[i] with inUse := 0 }

end Sys2Proof.Machine
end

