-- ==== Sys2Proof/Machine/Serving.lean ====
section
/-! DEFINITION. The Request Service Unit: whether a request is taken (R25, R29, R30), the check order (R31 to
R34), execution (R35 to R37), the ends of its memory jobs (R38, R39, R53, R54), the response frame (R45) and the
send results of responses (R46). -/

namespace Sys2Proof.Machine

/-- A request as the unit sees it: the sender of the frame's claim word and the frame's fields (R23). -/
structure Request where
  sender : Station
  kind : RequestKind
  incarnation : Byte
  tag : Tag
  window : Fin 32
  offset : Nat
  length : Nat
  payload : List Byte
  value : Word
  deriving DecidableEq, Repr

/-- The code of an outcome (R193). -/
def DoneOutcome.code : DoneOutcome → BitVec 3
  | .ok => 0
  | .absent => 1
  | .denied => 2
  | .range => 3
  | .parked => 4
  | .full => 5
  | .fault => 6

/-- The outcome a code names; code 7 names none (R193). -/
def DoneOutcome.ofCode (c : BitVec 3) : Option DoneOutcome :=
  if c = 0 then some .ok
  else if c = 1 then some .absent
  else if c = 2 then some .denied
  else if c = 3 then some .range
  else if c = 4 then some .parked
  else if c = 5 then some .full
  else if c = 6 then some .fault
  else none

/-- The request a frame carries, when it is a well formed request (R25, condition 1). -/
def frameRequest (f : Frame) : Option Request :=
  match f.body with
  | .put _ inc t w off len pay =>
    if lengthInRange len ∧ pay.length = len.toNat then
      some ⟨f.claim.sender, .put, inc, t, w.toFin, off.toNat, len.toNat, pay, 0⟩
    else none
  | .get _ inc t w off len =>
    if lengthInRange len then some ⟨f.claim.sender, .get, inc, t, w.toFin, off.toNat, len.toNat, [], 0⟩ else none
  | .signal _ inc t v => some ⟨f.claim.sender, .signal, inc, t, 0, 0, 0, [], v⟩
  | .data .. => none
  | .done .. => none

/-! ### Taking (R25, R29, R32) -/

/-- What the replay lookup finds (R32). -/
inductive Lookup where
  | absorbed
  | refused
  | settled (outcome : ReplayOutcome)
  | fresh
  deriving DecidableEq, Repr

/-- The replay record for a request's sender and entry index. -/
def requestRecord (s : State) (r : Request) : ReplayRecord := s.replay[replayIndex r.sender r.tag.entry]

/-- The replay lookup of a PUT or SIGNAL (R32); a GET has none. -/
def replayLookup (s : State) (r : Request) : Lookup :=
  match r.kind with
  | .get => .fresh
  | _ =>
    match (requestRecord s r).state with
    | .empty => .fresh
    | .pending =>
      if (requestRecord s r).incarnation = r.incarnation ∧ (requestRecord s r).epoch = r.tag.epoch then .absorbed
      else .refused
    | .settled =>
      if (requestRecord s r).incarnation = r.incarnation ∧ (requestRecord s r).epoch = r.tag.epoch then
        .settled ((requestRecord s r).outcome.getD .ok)
      else .fresh

/-- The lowest free Response Queue slot (log 21). -/
def freeSlot (s : State) : Option (Fin 8) := (List.finRange 8).find? fun k => s.slots[k].isNone

/-- The operation record filled from a request (R23, R30), EXECUTING and without a response. -/
def Request.operation (r : Request) (b : Option (Fin 24)) : Operation where
  phase := .executing
  requester := r.sender
  incarnation := r.incarnation
  tag := r.tag
  kind := r.kind
  window := if r.kind = .signal then none else some r.window
  localAddress := none
  length := if r.kind = .signal then none else some r.length
  mailboxSlot := none
  mailboxSequence := none
  buffer := b
  response := none
  sendCount := 0

/-- An operation whose response is built: ANSWERING (R23). -/
def Operation.answered (op : Operation) (a : Response) : Operation :=
  { op with phase := .answering, response := some a }

/-- A DONE built in the taking event: the operation holds no buffer and joins the tail of the send order (R32,
R34, R37, R44). -/
def State.answerAtOnce (s : State) (k : Fin 8) (r : Request) (o : DoneOutcome) : State :=
  { s.setSlot k (some ((r.operation none).answered (.done o))) with sendOrder := s.sendOrder ++ [k] }

/-- The outcome a record's stored outcome is answered with (R32). -/
def ReplayOutcome.answer : ReplayOutcome → DoneOutcome
  | .ok => .ok
  | .fault => .fault

/-! ### Execution (R35 to R37) -/

/-- A SIGNAL through step 2 and step 9 (R33, R37). -/
def State.serveSignal (s : State) (k : Fin 8) (r : Request) : State :=
  if inGrants s.loader.config.signalGrants r.sender = false then s.answerAtOnce k r .denied
  else if Config.signalNoticeLimit < s.notices.records.length then s.answerAtOnce k r .full
  else
    ((s.post (.remoteSignal r.sender r.value)).setReplay (replayIndex r.sender r.tag.entry)
      ⟨.settled, r.incarnation, r.tag.epoch, some .ok⟩).answerAtOnce k r .ok

/-- The operation of an admitted PUT or GET (R35, R36, R51). -/
def admittedOperation (r : Request) (w : WindowEntry) (b : Option (Fin 24)) : Operation :=
  match w.kind with
  | .memory => { r.operation b with localAddress := some (w.base + r.offset) }
  | .mailbox =>
    { r.operation b with
      localAddress := some (w.slotAddress w.nextSlot)
      mailboxSlot := some w.nextSlot
      mailboxSequence := some w.nextSequence }

/-- The memory job of an admitted request (R35, R36, R52). -/
def admittedJob (k : Fin 8) (r : Request) (w : WindowEntry) (b : Option (Fin 24)) : Job :=
  match w.kind with
  | .memory =>
    Job.listed (if r.kind = .put then .write else .read) .responder (w.base + r.offset) r.length b (.operation k) none
  | .mailbox =>
    Job.listed .write .responder (w.slotAddress w.nextSlot) Config.mailboxSlotBytes b (.operation k)
      (some w.nextSlot)

/-- The replay record a PUT's admission makes PENDING; a GET touches none (R35, R36). -/
def State.recordAdmission (s : State) (r : Request) : State :=
  if r.kind = .put then
    s.setReplay (replayIndex r.sender r.tag.entry) ⟨.pending, r.incarnation, r.tag.epoch, none⟩
  else s

/-- An admitted PUT or GET: the window's count rises, the operation is EXECUTING with its buffer, which holds a
PUT's payload already, and its job is queued (R18, R30, R35, R36). -/
def State.executeRequest (s : State) (k : Fin 8) (r : Request) : State :=
  (((((s.giveBuffer (freeBuffer s) (.operation k)).setWindow r.window
    s.windows[r.window].afterAdmission).setSlot k
      (some (admittedOperation r s.windows[r.window] (freeBuffer s)))).recordAdmission r).queueResponder
        (admittedJob k r s.windows[r.window] (freeBuffer s)))

/-- A PUT or GET through the Window Table's admission (R14, R31, R34). -/
def State.serveWindow (s : State) (k : Fin 8) (r : Request) : State :=
  match windowRefusal s.windows[r.window] (decide (r.kind = .put)) r.sender r.offset r.length with
  | none => s.executeRequest k r
  | some .parked => (s.touchWindow r.window r.sender r.offset).answerAtOnce k r .parked
  | some o => s.answerAtOnce k r o

/-- A request with a reserved slot, past the replay lookup: steps 2 to 9 of the check order (R31). -/
def State.serveFresh (s : State) (k : Fin 8) (r : Request) : State :=
  if r.kind = .signal then s.serveSignal k r else s.serveWindow k r

/-- A taken PUT's payload is placed in the buffer that the taking gives to its operation (R30). An admitted PUT goes on
holding that buffer; one that is refused or answered from its record returns it in the same event (R32, R34), with the
payload's bytes left in it (R148; log 21). -/
def State.placePayload (s : State) (r : Request) : State :=
  if r.kind = .put then s.fillBuffer (freeBuffer s) r.payload else s

/-- A request addressed to a RUNNING, RECEIVING station: conditions 4 and 5 of R25 and, when it is taken, its payload and
the check order. The Bool says whether it is taken. -/
def State.takeRequest (s : State) (r : Request) : State × Bool :=
  match replayLookup s r with
  | .refused => (s, false)
  | .absorbed => (s, true)
  | .settled o =>
    match freeSlot s with
    | none => (s, false)
    | some k => ((s.placePayload r).answerAtOnce k r o.answer, true)
  | .fresh =>
    match freeSlot s with
    | none => (s, false)
    | some k => ((s.placePayload r).serveFresh k r, true)

/-! ### The end of a responder job (R38, R39, R53, R54) -/

/-- The notices and counters of an execution end, in the order of R53 and R54: the commit and its arrival, the
LOCAL_FAULT, then the count and the drain. -/
def State.endExecution (s : State) (op : Operation) (faulted : Bool) : State :=
  match op.window with
  | none => s
  | some w =>
    let s1 := match op.mailboxSlot with
      | none => s
      | some slot => s.commitSlot w slot
    let s2 := if faulted then s1.post (.localFault w (op.localAddress.getD 0) op.mailboxSlot) else s1
    s2.endUse w

/-- The record of a PUT settles with its outcome (R38, R39). -/
def State.settleRecord (s : State) (op : Operation) (faulted : Bool) : State :=
  if op.kind = .put then
    s.setReplay (replayIndex op.requester op.tag.entry)
      ⟨.settled, op.incarnation, op.tag.epoch, some (if faulted then .fault else .ok)⟩
  else s

/-- The response an execution end builds (R38, R39). -/
def executionResponse (op : Operation) (faulted : Bool) : Response :=
  if faulted then .done .fault else if op.kind = .get then .data else .done .ok

/-- The response joins the send order; a DATA keeps the operation's buffer and a DONE returns it (R38, R39,
R44). -/
def State.answerExecuted (s : State) (k : Fin 8) (op : Operation) (faulted : Bool) : State :=
  if executionResponse op faulted = .data then
    { s.setSlot k (some (op.answered .data)) with sendOrder := s.sendOrder ++ [k] }
  else
    { (s.returnBuffer op.buffer).setSlot k
        (some ({ op with buffer := none }.answered (executionResponse op faulted))) with
      sendOrder := s.sendOrder ++ [k] }

/-- The end of the memory job of the operation in slot `k` (R38, R39). -/
def State.operationJobEnd (s : State) (k : Fin 8) (faulted : Bool) : State :=
  match s.slots[k] with
  | none => s
  | some op => ((s.endExecution op faulted).settleRecord op faulted).answerExecuted k op faulted

/-! ### Responses on the line (R45, R46) -/

/-- The response frame of an operation (R45). -/
def responseBody (s : State) (op : Operation) : Option FrameBody :=
  match op.response with
  | none => none
  | some (.done o) => some (.done op.requester op.tag o.code)
  | some .data =>
    some (.data op.requester op.tag (BitVec.ofNat 7 (op.length.getD 0)) (bufferBytes s op.buffer (op.length.getD 0)))

/-- The operation ends: it leaves the send order, its slot becomes free and a buffer it still holds returns
(R46). -/
def State.endOperation (s : State) (k : Fin 8) (op : Operation) : State :=
  { (s.returnBuffer op.buffer).setSlot k none with sendOrder := s.sendOrder.filter fun x => x != k }

/-- The send result of the response in slot `k` (R46). -/
def State.responseSent (s : State) (k : Fin 8) (taken : Bool) : State :=
  match s.slots[k] with
  | none => s
  | some op =>
    if taken then s.endOperation k op
    else if op.sendCount < 3 then
      { s.setSlot k (some { op with sendCount := op.sendCount + 1 }) with
        sendOrder := (s.sendOrder.filter fun x => x != k) ++ [k] }
    else s.endOperation k op

end Sys2Proof.Machine
end

