-- ==== Sys2Proof/Machine/Start.lean ====
section
/-! DEFINITION. Full reset and the Start Loader: STATION_RESET, RESET_ASSERTED and RESET_RELEASED (R183, R185),
the start read (R160) and the decision at its end (R186 to R189). -/

namespace Sys2Proof.Machine

/-! ### Full reset -/

/-- The cells of a write cycle that a full reset cuts: inside the address space, each holding a free value (R161;
log 7). -/
def cutCells (n : Nat) (j : Job) : List Host.Cell :=
  (j.cycleAddresses.filter fun a => decide (a < Config.memorySize)).map fun a => (a, Config.cutByte n a)

/-- The write cycle in progress, if the engine is driving one. -/
def cycleInProgress (s : State) : Option Job :=
  match s.engine.job with
  | none => none
  | some j => if j.phase = .moving ∧ j.kind = .write then some j else none

/-- A full reset cuts the engine's cycle: what a write cycle's bytes hold afterwards is unknown (R161). -/
def State.cutCycle (s : State) : State :=
  match cycleInProgress s with
  | none => s
  | some j => { s with mem := Memory.writeCells s.mem (cutCells s.freeCount j), freeCount := s.freeCount + 1 }

/-- A full reset's effect on every block (R183): R3, R24, R41, R66, R99, R120, R146, R161, R165, R178, R184. The
buffers' contents, local memory and the pins are not cleared; the station number is sampled again at the
release. -/
def State.fullReset (s : State) : State :=
  { s.cutCycle with
    windows := Vector.replicate 32 .cleared
    slots := Vector.replicate 8 none
    sendOrder := []
    replay := Vector.replicate 512 .cleared
    channels := Vector.replicate 8 .cleared
    pointer := 7
    entries := Vector.replicate 16 (Entry.freeWith 0)
    requestQueue := []
    line := .cleared
    buffers := s.buffers.map fun b => { b with owner := none }
    engine := .cleared
    notices := .cleared
    cmd := 0
    args := Vector.replicate 6 0
    result := .none
    loader := ⟨.starting, s.loader.number, .cleared, none, Vector.replicate 44 0⟩ }

/-- The start read: 44 bytes from address 0 into the loader's holding (R160). -/
def startRead : Job := Job.listed .read .start 0 Config.startBlockBytes none .loader none

/-- The event that begins a start: the straps are sampled and the start read is queued and selected at once
(R160, R185). -/
def State.beginStart (s : State) (straps : Station) : State :=
  { s with
    pins := { s.pins with resetHeld := false, straps := straps }
    loader := { s.loader with number := straps } }.startJob startRead

/-- STATION_RESET: a full reset and then a new start in the one event; a write while RESET# is held is ignored
(R178, R183). -/
def execStationReset (straps : Station) (s : State) : Host.Outcome State Fault Refusal :=
  if s.pins.resetHeld then .next s else .next (s.fullReset.beginStart straps)

/-- RESET_ASSERTED: a full reset, and the part stays in reset (R183). -/
def execResetAsserted (straps : Station) (s : State) : Host.Outcome State Fault Refusal :=
  .next { s.fullReset with pins := { s.pins with resetHeld := true, straps := straps } }

/-- RESET_RELEASED: the start begins; a release of a pin that is not held does not arise (R185; log 1). -/
def execResetReleased (straps : Station) (s : State) : Host.Outcome State Fault Refusal :=
  if s.pins.resetHeld then .next (s.beginStart straps) else .next s

/-! ### The start's decision (R187) -/

/-- Word `k` of the start block as the read delivered it, little-endian (R186, R195). -/
def startWord (holding : Vector Byte 44) (k : Nat) : Word :=
  let byte := fun i => holding.toList.getD (4 * k + i) 0
  byte 3 ++ byte 2 ++ byte 1 ++ byte 0

/-- The eleven words. -/
def startWords (holding : Vector Byte 44) : List Word := (List.range 11).map (startWord holding)

/-- Words 1 to 8 inside their ranges (R186). -/
def startRangesOk (w : Nat → Nat) : Bool :=
  decide (w 1 ≤ 3) && decide (w 2 ≤ 1) && decide (w 3 ≤ 255) && decide (1 ≤ w 4) && decide (w 4 ≤ 255) &&
  decide (w 5 ≤ 15) && decide (1 ≤ w 6) && decide (w 6 ≤ 255) && decide (1 ≤ w 7) && decide (w 7 ≤ 255) &&
  decide (1 ≤ w 8) && decide (w 8 ≤ 255)

/-- The first case of R187 that the words meet: a start failure, or none. -/
def startFailure (holding : Vector Byte 44) : Option StartReason :=
  if startWord holding 0 ≠ 1 then some .format
  else if (startWords holding).sum ≠ 0 then some .checksum
  else if startRangesOk (fun k => (startWord holding k).toNat) = false then some .range
  else none

/-- The configuration the words give (R186). -/
def startConfig (holding : Vector Byte 44) : StartConfig where
  lineRate := (startWord holding 1).toNat
  policy := if startWord holding 2 = 0 then .rotating else .fixed
  incarnation := (startWord holding 3).setWidth 8
  responseLimit := (startWord holding 4).toNat
  retryLimit := (startWord holding 5).toNat
  holdInterval := (startWord holding 6).toNat
  holdLimit := (startWord holding 7).toNat
  grantWait := (startWord holding 8).toNat
  signalGrants := startWord holding 9

/-- A start that fails (R189). -/
def State.failStart (s : State) (r : StartReason) : State :=
  ({ s with loader := { s.loader with station := .startFailed, reason := some r } }).post (.startFailed r)

/-- A start that passes: RUNNING, the configuration installed, the line JOINING (R188, R128). A frame on the
line at that moment was not seen from its start mark (R130). -/
def State.succeedStart (s : State) : State :=
  { s with
    loader := { s.loader with station := .running, config := startConfig s.loader.holding }
    line := { s.line with state := .joining, joinTimer := some 0, rx := .outOfStep } }

/-- The end of the start read (R187). -/
def State.decideStart (s : State) (faulted : Bool) : State :=
  if faulted then s.failStart .memory
  else
    match startFailure s.loader.holding with
    | some r => s.failStart r
    | none => s.succeedStart

end Sys2Proof.Machine
end

