-- ==== Sys2Proof/Machine/LocalBus.lean ====
section
/-! DEFINITION. The Local Memory Engine's events: the grant (R153, R155), a completed cycle (R154), a bus error
(R156), the grant wait's end (R153), and the end of a job with what its owner does (R157, R159). -/

namespace Sys2Proof.Machine

/-- The engine lets an ended job go: LBREQ released, the timer stopped, idle (R157). -/
def State.releaseEngine (s : State) : State :=
  s.setEngine { s.engine with job := none, timer := none, lbreq := false }

/-- What the owner of an ended job does (R159). -/
def State.reportJobEnd (s : State) (o : JobOwner) (faulted : Bool) : State :=
  match o with
  | .operation k => s.operationJobEnd k faulted
  | .entry i => s.entryJobEnd i faulted
  | .loader => s.decideStart faulted

/-- The end of the started job, in one event: the engine lets go, the owner acts, and the arbiter selects the
next job from the lists as the owner left them (R157; log 23). -/
def State.endJob (s : State) (o : JobOwner) (faulted : Bool) : State :=
  (s.releaseEngine.reportJobEnd o faulted).selectJob

/-- LBGNT_ASSERTED (R153, R155): a REQUESTING job is MOVING; a grant regained before the cycle in progress has
ended lets the job go on; with LBREQ deasserted nothing but the level changes. -/
def execLbgntAsserted (s : State) : Host.Outcome State Fault Refusal :=
  match s.engine.job with
  | none => .next { s with pins := { s.pins with lbgnt := true } }
  | some j =>
    .next
      { s with
        pins := { s.pins with lbgnt := true }
        engine := { s.engine with job := some { j with phase := .moving, lastCycle := false }, timer := none } }

/-- LBGNT_DEASSERTED (R155): a MOVING job's cycle in progress is to be its last before it asks again; otherwise
nothing but the level changes. -/
def execLbgntDeasserted (s : State) : Host.Outcome State Fault Refusal :=
  match s.engine.job with
  | none => .next { s with pins := { s.pins with lbgnt := false } }
  | some j =>
    .next
      { s with
        pins := { s.pins with lbgnt := false }
        engine := { s.engine with job := some { j with lastCycle := decide (j.phase = .moving) } } }

/-- LBERR (R156): in a cycle of a MOVING job it ends the job in a bus fault. Outside any cycle it changes nothing: with
no job or a REQUESTING one (R153), and after the completion of a job's last cycle, even where the next job is MOVING
already under the standing grant (R157, R162; log 31). -/
def execLberr (s : State) (inCycle : Bool := true) : Host.Outcome State Fault Refusal :=
  match s.engine.job with
  | none => .next s
  | some j => if j.phase = .moving ∧ inCycle = true then .next (s.endJob j.owner true) else .next s

/-- GRANT_WAIT_EXPIRY (R153, R155): a REQUESTING job ends in a grant fault; with the timer stopped the event does
not arise (log 1). -/
def execGrantWaitExpiry (s : State) : Host.Outcome State Fault Refusal :=
  match s.engine.job with
  | none => .next s
  | some j => if j.phase = .requesting then .next (s.endJob j.owner true) else .next s

/-- The job after a completed cycle: bytes moved rises by the bytes the cycle enabled (R154). -/
def Job.afterCycle (j : Job) : Job := { j with moved := j.moved + j.cycleLength }

/-- The engine after a cycle that did not end the job: MOVING on, or REQUESTING again with a fresh grant wait
when the grant went during the cycle (R155). -/
def State.continueJob (s : State) (j : Job) : State :=
  if j.lastCycle then
    s.setEngine
      { s.engine with
        job := some { j.afterCycle with phase := .requesting, lastCycle := false }, timer := some (grantLimit s j) }
  else s.setEngine { s.engine with job := some j.afterCycle }

/-- A completed cycle of a MOVING job (R154, R155, R157). -/
def State.completeCycle (s : State) (j : Job) : State :=
  if j.length ≤ j.moved + j.cycleLength then (s.moveCycle j).endJob j.owner false
  else (s.moveCycle j).continueJob j

/-- BUS_CYCLE_COMPLETE (R154, R163): the stores of other masters come first, then the cycle's own bytes move.
With no cycle in progress the event does not arise (log 1, log 5); a cycle or a store outside the address space
faults (log 6). -/
def execBusCycleComplete (stores : List Host.Cell) (s : State) : Host.Outcome State Fault Refusal :=
  match s.engine.job with
  | none => .next s
  | some j =>
    if j.phase = .moving then
      if (stores.all fun c => decide (c.1 < Config.memorySize)) &&
          j.cycleAddresses.all fun a => decide (a < Config.memorySize) then
        .next ({ s with mem := Memory.writeCells s.mem stores }.completeCycle j)
      else .fault .outsideLocalMemory
    else .next s

end Sys2Proof.Machine
end

