-- ==== Sys2Proof/Machine/SharedLine.lean ====
section
/-! DEFINITION. The Line Access Unit: the frame offered and its rank (R133, R136), the rounds (R135), sending and
clashes (R139 to R141), the receipt of frames (R124 to R132, R137), joining (R130) and LINE_RESTART (R143). -/

namespace Sys2Proof.Machine

/-! ### Rank and contention (R135, R136) -/

/-- A station's rank under its policy (R136). -/
def rank (policy : Policy) (own lastWinner : Station) : BitVec 5 :=
  match policy with
  | .rotating => own - lastWinner - 1
  | .fixed => own

/-- What a station drives for one bit of its claim word (R121, R135). -/
def claimDrive (bit : Nat) (claim : BitVec 11) : LineCond := LineCond.ofBit (claim.getLsbD bit)

/-- One bit of a contention round: each station reads what the line carries, and one that drives another condition
has lost (R121, R135). -/
def contendBit (claims : List (BitVec 11)) (bit : Nat) : List (BitVec 11) :=
  claims.filter fun c => claimDrive bit c == carried (claims.map (claimDrive bit))

/-- The claim words still driven after a round, bit by bit from the class bit (R135). -/
def contend (claims : List (BitVec 11)) : List (BitVec 11) :=
  [10, 9, 8, 7, 6, 5, 4, 3, 2, 1, 0].foldl contendBit claims

/-- The bit time of a line rate code, in nanoseconds (R127). -/
def bitTimeNs (lineRate : Nat) : Nat :=
  match lineRate with
  | 0 => 1000
  | 1 => 500
  | 2 => 250
  | _ => 125

/-! ### The frame offered (R133) -/

/-- This station's claim word for a class (R133, R136). -/
def ownClaim (s : State) (request : Bool) : Claim :=
  ⟨request, rank s.loader.config.policy s.loader.number s.line.lastWinner, s.loader.number⟩

/-- The frame to offer: the response at the head of the send order, otherwise the entry at the head of the
Request Queue, otherwise nothing (R133). -/
def offer (s : State) : Option Hand :=
  match s.sendOrder with
  | k :: _ =>
    match s.slots[k] with
    | none => none
    | some op =>
      match responseBody s op with
      | none => none
      | some body => some ⟨⟨ownClaim s false, body⟩, .response k⟩
  | [] =>
    match s.requestQueue with
    | i :: _ => some ⟨⟨ownClaim s true, requestBody s i⟩, .request i⟩
    | [] => none

/-- START_OPPORTUNITY (R131, R133): in IDLE the frame to offer is taken in hand and the station contends; with
nothing to offer, or in any other line state, nothing happens (R129), but that an abort mark is over by then
(R127, R140; log 29). -/
def execStartOpportunity (s : State) : Host.Outcome State Fault Refusal :=
  if s.line.state = .idle then
    match offer s with
    | none => .next (s.setLine { s.line with aborting := false })
    | some h => .next (s.setLine { s.line with state := .contending, hand := some h, aborting := false })
  else .next s

/-! ### The round (R135, R104, R134) -/

/-- ROUND_LOST (R135): the station stops driving and receives the winner's frame, of which it has seen every
bit (R132). -/
def execRoundLost (s : State) : Host.Outcome State Fault Refusal :=
  match s.line.state, s.line.hand with
  | .contending, some h =>
    match h.owner with
    | .response _ => .next (s.setLine { s.line with state := .receiving, hand := none, rx := .receiving })
    | .request i =>
      .next ((s.setLine { s.line with state := .receiving, hand := none, rx := .receiving }).entryRoundLost i)
  | _, _ => .next s

/-- ROUND_WON (R135): SENDING, with the frame in hand; a request entry leaves its queue (R104). -/
def execRoundWon (s : State) : Host.Outcome State Fault Refusal :=
  match s.line.state, s.line.hand with
  | .contending, some h =>
    match h.owner with
    | .response _ => .next (s.setLine { s.line with state := .sending })
    | .request i => .next ((s.setLine { s.line with state := .sending }).sendEntry i)
  | _, _ => .next s

/-! ### Sending (R139, R140) -/

/-- The acceptance bit as the sender reads it: any driven level is TAKEN (R126). -/
def slotTaken (slot : LineCond) : Bool := slot != .undriven

/-- The owner of the frame in hand is given its acceptance result (R139). -/
def State.giveResult (s : State) (o : HandOwner) (taken : Bool) : State :=
  match o with
  | .response k => s.responseSent k taken
  | .request i => s.entrySent i taken

/-- SENT_FRAME_END (R139, R137). -/
def execSentFrameEnd (slot : LineCond) (s : State) : Host.Outcome State Fault Refusal :=
  match s.line.state, s.line.hand with
  | .sending, some h =>
    .next
      ((s.setLine
          { s.line with state := .idle, lastWinner := s.loader.number, clashes := 0, hand := none }).giveResult
        h.owner (slotTaken slot))
  | _, _ => .next s

/-- The owner of the frame in hand is given a clash (R140): a response stays at the head of the send order
(R47). -/
def State.giveClash (s : State) (o : HandOwner) : State :=
  match o with
  | .response _ => s
  | .request i => s.entryClashed i

/-- The line after a clash: the count rises, the frame in hand is cleared, the abort mark is driven in the bit time
that follows, and the state is IDLE, or SILENT when the count has reached 16 (R140, R141; log 29). -/
def Line.afterClash (l : Line) : Line :=
  { l with
    clashes := l.clashes + 1
    hand := none
    aborting := true
    state := if Config.silentClashes ≤ l.clashes + 1 then .silent else .idle }

/-- CLASH (R140, R141). The owner acts first and LINE_SILENT follows (log 24). -/
def execClash (s : State) : Host.Outcome State Fault Refusal :=
  match s.line.state, s.line.hand with
  | .sending, some h =>
    if Config.silentClashes ≤ s.line.clashes + 1 then
      .next (((s.setLine s.line.afterClash).giveClash h.owner).post (.lineSilent (s.line.clashes + 1)))
    else .next ((s.setLine s.line.afterClash).giveClash h.owner)
  | _, _ => .next s

/-! ### Receiving (R124 to R132) -/

/-- The receipt in JOINING or SILENT after a driven bit time is seen: a frame begins at a start mark, and at any driven
bit time of a line the station is in step with (R130, R131, R142; log 13, log 14). -/
def Receipt.afterMark (r : Receipt) (seen : LineCond) : Receipt :=
  if r = .nothing ∨ r = .outOfStep ∧ seen = .startMark then .receiving else r

/-- The line after a driven bit time from another station is seen (R127, R130, R131): in IDLE any driven condition
begins a receipt; in JOINING it sets the joining timer back to 0. An abort mark of this station's own is over by
then (R140; log 29). -/
def Line.afterMark (l : Line) (seen : LineCond) : Line :=
  if seen = .undriven then l
  else
    match l.state with
    | .idle => { l with state := .receiving, rx := .receiving, aborting := false }
    | .joining => { l with joinTimer := some 0, rx := l.rx.afterMark seen, aborting := false }
    | .silent => { l with rx := l.rx.afterMark seen, aborting := false }
    | .offline => l
    | .contending => l
    | .sending => l
    | .receiving => l

/-- START_MARK (R131). -/
def execStartMark (seen : LineCond) (s : State) : Host.Outcome State Fault Refusal :=
  .next (s.setLine (s.line.afterMark seen))

/-- The answer a response frame carries, when it is well formed (R26). -/
def frameAnswer (f : Frame) : Option Answer :=
  match f.body with
  | .done _ t o =>
    match DoneOutcome.ofCode o with
    | some outcome => some (.done t outcome)
    | none => none
  | .data _ t len pay => if lengthInRange len ∧ pay.length = len.toNat then some (.data t pay) else none
  | .put .. => none
  | .get .. => none
  | .signal .. => none

/-- What a RUNNING, RECEIVING station does with a good frame: a request addressed here goes to the Request
Service Unit and a response to the Outstanding Request Table; the Bool says whether the frame is taken (R25,
R26, R124). -/
def State.takeFrame (s : State) (f : Frame) : State × Bool :=
  if f.body.dest = s.loader.number ∧ s.loader.station = .running ∧ s.line.state = .receiving then
    match frameRequest f, frameAnswer f with
    | some r, _ => s.takeRequest r
    | none, some a => (s.takeAnswer a, true)
    | none, none => (s, false)
  else (s, false)

/-- A good frame's CRC is received: the frame is taken or not, and the receipt remembers its sender and whether
the acceptance bit is driven (R124, R126, R137). -/
def State.receiveFrame (s : State) (f : Frame) : State :=
  (s.takeFrame f).1.setLine { (s.takeFrame f).1.line with rx := .good f.claim.sender (s.takeFrame f).2 }

/-- FRAME_CRC_RECEIVED (R124): only in a receipt under way; a bad frame changes nothing. -/
def execFrameCrcReceived (conds : List LineCond) (s : State) : Host.Outcome State Fault Refusal :=
  if s.line.rx = .receiving then
    match receive conds with
    | none => .next s
    | some f => .next (s.receiveFrame f)
  else .next s

/-- The last winner after the end of a received frame (R137). -/
def Line.winnerAtEnd (l : Line) : Station :=
  match l.rx with
  | .good sender _ => sender
  | .nothing => l.lastWinner
  | .outOfStep => l.lastWinner
  | .receiving => l.lastWinner

/-- Whether the frame that ends was good. -/
def Line.goodAtEnd (l : Line) : Bool :=
  match l.rx with
  | .good _ _ => true
  | .nothing => false
  | .outOfStep => false
  | .receiving => false

/-- Whether a frame is being received at all. -/
def Line.inReceipt (l : Line) : Bool :=
  match l.rx with
  | .good _ _ => true
  | .receiving => true
  | .nothing => false
  | .outOfStep => false

/-- Whether the bit times of a frame that ends agree with what the receipt made of its CRC: the good frame of that sender,
or none. Where no frame is received there is nothing to agree with. -/
def Line.agrees (l : Line) (conds : List LineCond) : Bool :=
  match l.rx with
  | .good sender _ => ((receivedFrame conds).map fun f => f.claim.sender) == some sender
  | .receiving => (receivedFrame conds).isNone
  | .nothing => true
  | .outOfStep => true

/-- The station at the end of a frame (R130, R132, R137, R142). Where no frame is being received the end is that of a
frame the station abandoned or did not see: its own abort mark is over (R140; log 29). -/
def State.endFrame (s : State) : State :=
  match s.line.state with
  | .receiving => s.setLine { s.line with state := .idle, lastWinner := s.line.winnerAtEnd, rx := .nothing }
  | .joining =>
    if s.line.goodAtEnd then
      (s.setLine
        { s.line with state := .idle, lastWinner := s.line.winnerAtEnd, joinTimer := none, rx := .nothing }).post
        (.lineJoined .frame s.line.winnerAtEnd)
    else if s.line.inReceipt then s.setLine { s.line with rx := .nothing }
    else s.setLine { s.line with aborting := false }
  | .silent =>
    if s.line.inReceipt then s.setLine { s.line with lastWinner := s.line.winnerAtEnd, rx := .nothing }
    else s.setLine { s.line with aborting := false }
  | .idle => s.setLine { s.line with aborting := false }
  | .offline => s
  | .contending => s
  | .sending => s

/-- FRAME_END (R125, R132): only at the bit time that R125 places the frame's end at, by how the frame was received
(log 1). -/
def execFrameEnd (s : State) (conds : List LineCond := [.undriven, .undriven, .undriven]) :
    Host.Outcome State Fault Refusal :=
  if endsFrame conds = true ∧ s.line.agrees conds = true then .next s.endFrame else .next s

/-! ### Joining and restart (R130, R143) -/

/-- JOINING_TIMER_EXPIRY (R130): the 512th consecutive undriven bit time; it does not arise in another line state
or while a frame is being received (log 15). -/
def execJoiningTimerExpiry (s : State) : Host.Outcome State Fault Refusal :=
  if s.line.state = .joining ∧ s.line.inReceipt = false then
    .next
      ((s.setLine { s.line with state := .idle, joinTimer := none, rx := .nothing, aborting := false }).post
        (.lineJoined .quiet s.line.lastWinner))
  else .next s

/-- LINE_RESTART (R143): a receipt under way goes on. -/
def lineRestart (s : State) : State × Result :=
  if s.line.state = .silent then
    (s.setLine { s.line with state := .joining, lastWinner := 31, clashes := 0, joinTimer := some 0 }, .done)
  else (s, .wrongState)

/-- LINE_RESTART, code 32. -/
def execLineRestart (s : State) : Host.Outcome State Fault Refusal := .next (takeCommand 32 lineRestart s)

/-! ### What the station drives -/

/-- What the station drives on the line from its present state on, one condition for each bit time until it stops
driving or its next event comes: the abort mark of a clash (R140); in a round two bit times of start mark and its
claim word (R133, R135, R193); in SENDING the rest of its frame (R139); the acceptance bit, a 0, of a frame it has
taken (R126); and otherwise nothing (R129; log 29). -/
def drives (s : State) : List LineCond :=
  if s.line.aborting then [.abortMark]
  else
    match s.line.state, s.line.hand, s.line.rx with
    | .contending, some h, _ => [.startMark, .startMark] ++ h.frame.claim.bits.map LineCond.ofBit
    | .sending, some h, _ => (h.frame.wire.drop 11).map LineCond.ofBit
    | .receiving, _, .good _ true => [.bit0]
    | _, _, _ => []

end Sys2Proof.Machine
end

