-- ==== Sys2Proof/Machine/PortWrites.lean ====
section
/-! DEFINITION. The writes to the Local Port that are no named command: a code that names none, NOTICE_POP,
INT_ENABLE and the other words (R170, R171, R177, R179). -/

namespace Sys2Proof.Machine

/-- NOTICE_POP (R170): a write of any value. -/
def execNoticePop (_value : Word) (s : State) : Host.Outcome State Fault Refusal := .next (portPop s)

/-- INT_ENABLE (R171, R196). -/
def execIntEnable (value : Word) (enables : BitVec 4) (s : State) : Host.Outcome State Fault Refusal :=
  .next (portEnable value enables s)

/-- A write to CMD as it comes from the bus (R179): each of the fourteen codes is its command, any other is
UNKNOWN_COMMAND. STATION_RESET samples the straps as the pins last stood. -/
def cmdWrite (code : Word) (s : State) : Host.Outcome State Fault Refusal :=
  if code = 1 then execWinOpen s
  else if code = 2 then execWinPark s
  else if code = 3 then execWinUnpark s
  else if code = 4 then execWinClose s
  else if code = 5 then execWinGrants s
  else if code = 6 then execWinQuery s
  else if code = 7 then execMboxConsume s
  else if code = 16 then execChLoad s
  else if code = 17 then execChStart s
  else if code = 18 then execChAbort s
  else if code = 19 then execChClear s
  else if code = 20 then execChQuery s
  else if code = 32 then execLineRestart s
  else if code = 48 then execStationReset s.pins.straps s
  else .next (takeUnknown code s)

/-- UNKNOWN_COMMAND (R177, R179): bytes whose enables are off count as 0 in the code. A code that names a command
is that command's row (it is no well formed UNKNOWN_COMMAND) and is taken as that command (log 10). -/
def execUnknownCommand (value : Word) (enables : BitVec 4) (s : State) : Host.Outcome State Fault Refusal :=
  cmdWrite (enabledWord value enables) s

/-- PORT_WORD_WRITE (R177, R196): an argument word's enabled bytes are replaced; a read-only word or an empty
position ignores the write. A write at CMD, NOTICE_POP or INT_ENABLE is another row's (it is no well formed
PORT_WORD_WRITE) and is taken as that row (log 10). -/
def execPortWordWrite (address : BitVec 24) (value : Word) (enables : BitVec 4) (s : State) :
    Host.Outcome State Fault Refusal :=
  if portPosition address = 0 then execUnknownCommand value enables s
  else if portPosition address = 14 then execNoticePop value s
  else if portPosition address = 15 then execIntEnable value enables s
  else .next (portArgument (portPosition address) value enables s)

end Sys2Proof.Machine
end

