-- ==== Sys2Proof/Machine/Dispatch.lean ====
section
/-! DEFINITION. Which meaning each command has: one arm per constructor, in the table's order. -/

namespace Sys2Proof.Machine

def exec (i : Instr) (s : State) : Host.Outcome State Fault Refusal :=
  match i with
  | .winOpen => Sys2Proof.Machine.execWinOpen s
  | .winPark => Sys2Proof.Machine.execWinPark s
  | .winUnpark => Sys2Proof.Machine.execWinUnpark s
  | .winClose => Sys2Proof.Machine.execWinClose s
  | .winGrants => Sys2Proof.Machine.execWinGrants s
  | .winQuery => Sys2Proof.Machine.execWinQuery s
  | .mboxConsume => Sys2Proof.Machine.execMboxConsume s
  | .chLoad => Sys2Proof.Machine.execChLoad s
  | .chStart => Sys2Proof.Machine.execChStart s
  | .chAbort => Sys2Proof.Machine.execChAbort s
  | .chClear => Sys2Proof.Machine.execChClear s
  | .chQuery => Sys2Proof.Machine.execChQuery s
  | .lineRestart => Sys2Proof.Machine.execLineRestart s
  | .stationReset straps => Sys2Proof.Machine.execStationReset straps s
  | .unknownCommand value enables => Sys2Proof.Machine.execUnknownCommand value enables s
  | .noticePop value => Sys2Proof.Machine.execNoticePop value s
  | .intEnable value enables => Sys2Proof.Machine.execIntEnable value enables s
  | .portWordWrite address value enables => Sys2Proof.Machine.execPortWordWrite address value enables s
  | .resetAsserted straps => Sys2Proof.Machine.execResetAsserted straps s
  | .resetReleased straps => Sys2Proof.Machine.execResetReleased straps s
  | .paceAsserted n => Sys2Proof.Machine.execPaceAsserted n s
  | .paceDeasserted n => Sys2Proof.Machine.execPaceDeasserted n s
  | .lbgntAsserted => Sys2Proof.Machine.execLbgntAsserted s
  | .lbgntDeasserted => Sys2Proof.Machine.execLbgntDeasserted s
  | .lberr inCycle => Sys2Proof.Machine.execLberr s inCycle
  | .busCycleComplete stores => Sys2Proof.Machine.execBusCycleComplete stores s
  | .grantWaitExpiry => Sys2Proof.Machine.execGrantWaitExpiry s
  | .startOpportunity => Sys2Proof.Machine.execStartOpportunity s
  | .startMark seen => Sys2Proof.Machine.execStartMark seen s
  | .roundLost => Sys2Proof.Machine.execRoundLost s
  | .roundWon => Sys2Proof.Machine.execRoundWon s
  | .frameCrcReceived conds => Sys2Proof.Machine.execFrameCrcReceived conds s
  | .frameEnd conds => Sys2Proof.Machine.execFrameEnd s conds
  | .sentFrameEnd slot => Sys2Proof.Machine.execSentFrameEnd slot s
  | .clash => Sys2Proof.Machine.execClash s
  | .joiningTimerExpiry => Sys2Proof.Machine.execJoiningTimerExpiry s
  | .responseTimerExpiry entry => Sys2Proof.Machine.execResponseTimerExpiry entry s
  | .holdTimerExpiry entry => Sys2Proof.Machine.execHoldTimerExpiry entry s
  | .formation => Sys2Proof.Machine.execFormation s
  | .signalFormation => Sys2Proof.Machine.execSignalFormation s

end Sys2Proof.Machine
end

