-- ==== Sys2Proof/Safety.lean ====
section
/-! DEFINITION. What the station keeps true at every event: one predicate for each block, each meant to be
kept by every step together with the predicates it names. -/

namespace Sys2Proof.Machine

/-- RESET# is released and the station is RUNNING: a named command other than STATION_RESET is handed to its
owner (R178, R179). -/
def Ready (s : State) : Prop := s.pins.resetHeld = false ∧ s.loader.station = .running

/-! ### While RESET# is held (R178, R183) -/

/-- A FREE window entry, every other field 0 (R3, R11). -/
def freeWindow : WindowEntry :=
  { state := .free, kind := .memory, base := 0, limit := 0, slotCount := 0, readGrants := 0, writeGrants := 0
    inUse := 0, touched := false, quietWanted := false, head := 0, committed := 0, reserved := 0, sequence := 0 }

/-- Every block stands at its full-reset value (R3, R24, R41, R66, R99, R120, R146, R161, R165, R178, R184). A kind of 0
read as MEMORY, as PUT and as PUSH is the first of its rule's list (log 20). -/
def AtFullReset (s : State) : Prop :=
  (∀ i : Fin 32, s.windows[i] = freeWindow) ∧
  (∀ k : Fin 8, s.slots[k] = none) ∧ s.sendOrder = [] ∧
  (∀ n : Fin 512, s.replay[n] = { state := .empty, incarnation := 0, epoch := 0, outcome := none }) ∧
  (∀ c : Fin 8, s.channels[c] =
    { state := .idle, direction := .push, target := 0, window := 0, mailbox := false, initialRemote := 0
      currentRemote := 0, initialLocal := 0, currentLocal := 0, initialCount := 0, remaining := 0, frameSize := 0
      depth := 0, reload := false, paced := false, signal := none, live := 0, armed := false, faultCode := .none
      faultOffset := 0, faultAtSignal := false }) ∧
  s.pointer = 7 ∧
  (∀ i : Fin 16, s.entries[i] =
    { state := .free, epoch := 0, owner := none, kind := .put, target := 0, window := 0, mailbox := false
      remoteOffset := 0, localAddress := 0, length := 0, signalValue := 0, buffer := none, retry := 0, hold := 0
      timer := .stopped }) ∧
  s.requestQueue = [] ∧
  s.line = { state := .offline, lastWinner := 31, clashes := 0, joinTimer := none, hand := none, rx := .nothing
             aborting := false } ∧
  (∀ b : Fin 24, s.buffers[b].owner = none) ∧
  s.engine = { responder := [], requester := [], job := none, timer := none, lbreq := false } ∧
  s.notices = { records := [], enable := false, int := false } ∧
  s.cmd = 0 ∧ (∀ p : Fin 6, s.args[p] = 0) ∧ s.result = .none ∧
  s.loader.station = .starting ∧ s.loader.reason = none ∧
  s.loader.config =
    { lineRate := 0, policy := .rotating, incarnation := 0, responseLimit := 0, retryLimit := 0, holdInterval := 0
      holdLimit := 0, grantWait := 0, signalGrants := 0 }

/-- While RESET# is held the part stays in reset. -/
def HeldInv (s : State) : Prop := s.pins.resetHeld = true → AtFullReset s

/-! ### The Notice Queue (R164, R167, R168, R171) -/

/-- At most 32 records; the marker is at most the newest; a full list ends in it; INT follows the count and the
enable. -/
def NoticesOk (q : NoticeQueue) : Prop :=
  q.records.length ≤ Config.noticeRoom ∧ Notice.overflow ∉ q.records.dropLast ∧
  (q.records.length = Config.noticeRoom → Notice.overflow ∈ q.records) ∧
  q.int = (q.enable && !q.records.isEmpty)

/-! ### The line and the loader (R119, R128, R140, R141, R184) -/

/-- The hand, the clash count, the joining timer, the receipt and the abort mark agree with the line state. -/
def LineOk (l : Line) : Prop :=
  (l.hand.isSome = true ↔ l.state = .contending ∨ l.state = .sending) ∧
  (l.joinTimer.isSome = true ↔ l.state = .joining) ∧
  l.clashes ≤ Config.silentClashes ∧ (l.state = .silent ↔ l.clashes = Config.silentClashes) ∧
  (l.state = .offline → l = .cleared) ∧
  (l.state = .idle ∨ l.state = .contending ∨ l.state = .sending → l.rx = .nothing) ∧
  (l.state = .receiving → l.rx ≠ .nothing ∧ l.rx ≠ .outOfStep) ∧
  (l.aborting = true → (l.state = .idle ∨ l.state = .silent ∨ l.state = .joining) ∧ l.rx = .nothing)

/-- The line is OFFLINE exactly until the station is RUNNING, and the engine works for the Start Loader only while
the station is STARTING (R128, R160). -/
def StartOk (s : State) : Prop :=
  (s.line.state = .offline ↔ s.loader.station ≠ .running) ∧
  (∀ j, s.engine.job = some j → j.owner = .loader → s.loader.station = .starting) ∧
  (∀ j ∈ s.engine.responder, ∃ k, j.owner = .operation k) ∧
  (∀ j ∈ s.engine.requester, ∃ i, j.owner = .entry i) ∧
  (s.loader.reason.isSome = true ↔ s.loader.station = .startFailed)

/-- The line's and the loader's predicate. -/
def LineInv (s : State) : Prop := HeldInv s ∧ LineOk s.line ∧ StartOk s

/-! ### The engine (R150 to R155, R161) -/

/-- LBREQ, the timer and the phase agree with the started job and the grant, and an idle engine has no job to
select. -/
def EngineOk (s : State) : Prop :=
  s.engine.lbreq = s.engine.job.isSome ∧
  (s.engine.timer.isSome = true ↔ ∃ j, s.engine.job = some j ∧ j.phase = .requesting) ∧
  (∀ j, s.engine.job = some j → j.phase ≠ .listed ∧
    (j.phase = .requesting → s.pins.lbgnt = false ∧ j.lastCycle = false) ∧
    (j.phase = .moving → (j.lastCycle = true ↔ s.pins.lbgnt = false))) ∧
  (∀ j ∈ s.engine.responder ++ s.engine.requester, j.phase = .listed ∧ j.moved = 0 ∧ j.lastCycle = false) ∧
  (s.engine.job = none → s.engine.responder = [] ∧ s.engine.requester = [])

/-- The engine's predicate. -/
def EngineInv (s : State) : Prop := HeldInv s ∧ EngineOk s

/-! ### The channel records (R65, R68, R79, R84, R85) -/

/-- The laws of a channel record: its ranges, the law of R79 and R198 in every state, and what each state says of
remaining, the signal and the fault code. -/
def ChannelOk (c : Fin 8) (r : Channel) : Prop :=
  r.remaining ≤ r.initialCount ∧
  r.initialRemote + r.initialCount ≤ Config.memorySize ∧ r.initialLocal + r.initialCount ≤ Config.memorySize ∧
  r.currentRemote + r.remaining = r.initialRemote + r.initialCount ∧
  r.currentLocal + r.remaining = r.initialLocal + r.initialCount ∧
  r.frameSize ≤ 64 ∧ r.depth ≤ 4 ∧ (r.paced = true → c.val ≤ 3) ∧
  (r.mailbox = true → r.depth = 1 ∧ r.direction = .push) ∧
  (r.state ≠ .idle → 1 ≤ r.frameSize ∧ 1 ≤ r.depth ∧ (r.initialCount = 0 → r.signal.isSome = true)) ∧
  (r.state = .ready → r.remaining = r.initialCount) ∧
  (r.state = .running → r.remaining = 0 → r.initialCount = 0) ∧
  (r.state = .finishing ∨ r.state = .signalling ∨ r.state = .done → r.remaining = 0) ∧
  (r.state = .signalling → r.signal.isSome = true) ∧
  (r.faultCode ≠ .none ↔ r.state = .halting ∨ r.state = .faulted)

/-- Every channel record obeys its laws. -/
def ChannelInv (s : State) : Prop := ∀ c : Fin 8, ChannelOk c s.channels[c]

/-! ### Entries, their owners, the Request Queue and their jobs (R80, R97, R102, R116, R117) -/

/-- How many entries a channel owns. -/
def ownedCount (s : State) (c : Fin 8) : Nat :=
  (List.finRange 16).countP fun i => s.entries[i].owner == some c

/-- The entry is the frame in hand of a round or of a send. -/
def inHand (s : State) (i : Fin 16) : Bool :=
  (s.line.state == .contending || s.line.state == .sending) && (s.line.hand.map Hand.owner == some (.request i))

/-- The entry's job is the engine's started job. -/
def jobStarted (s : State) (i : Fin 16) : Bool := s.engine.job.map Job.owner == some (.entry i)

/-- How many jobs of the requester list are the entry's. -/
def jobsListed (s : State) (i : Fin 16) : Nat := s.engine.requester.countP fun j => j.owner == .entry i

/-- What a channel's state says of its live entries. -/
def LiveOk (r : Channel) : Prop :=
  r.live ≤ r.depth ∧ (r.initialCount = 0 → r.remaining = 0) ∧ (r.state ≠ .idle → 1 ≤ r.depth) ∧
  match r.state with
  | .idle => r.live = 0
  | .ready => r.live = 0
  | .running => r.initialCount = 0 → r.live = 0
  | .finishing => 1 ≤ r.live
  | .signalling => r.live ≤ 1
  | .halting => 1 ≤ r.live
  | .faulted => r.live = 0
  | .done => r.live = 0

/-- What an entry's state says of its timer. -/
def TimerOk (e : Entry) : Prop :=
  match e.timer with
  | .stopped => e.state ≠ .sent ∧ e.state ≠ .holding
  | .responseDeadline _ => e.state = .sent
  | .holdEnd _ => e.state = .holding

/-- What an entry's state says of its job and of the frame in hand. -/
def EntryOk (s : State) (i : Fin 16) : Prop :=
  match s.entries[i].state with
  | .staging => jobsListed s i + (jobStarted s i).toNat = 1 ∧ inHand s i = false
  | .landing => jobsListed s i + (jobStarted s i).toNat = 1 ∧ inHand s i = false
  | .releasing => jobsListed s i = 0 ∧ jobStarted s i = !(inHand s i)
  | .queued => jobsListed s i = 0 ∧ jobStarted s i = false ∧ (inHand s i = true → s.line.state = .contending)
  | .sending => jobsListed s i = 0 ∧ jobStarted s i = false ∧ inHand s i = true ∧ s.line.state = .sending
  | .free => jobsListed s i = 0 ∧ jobStarted s i = false ∧ inHand s i = false
  | .sent => jobsListed s i = 0 ∧ jobStarted s i = false ∧ inHand s i = false
  | .holding => jobsListed s i = 0 ∧ jobStarted s i = false ∧ inHand s i = false

/-- Every live entry has one owner, each channel's live entries counts the entries it owns, and the Request Queue
lists the QUEUED entries once each. -/
def RequestsOk (s : State) : Prop :=
  (∀ i : Fin 16, s.entries[i].owner = none ↔ s.entries[i].state = .free ∨ s.entries[i].state = .releasing) ∧
  (∀ c : Fin 8, s.channels[c].live = ownedCount s c) ∧ (∀ c : Fin 8, LiveOk s.channels[c]) ∧
  s.requestQueue.Nodup ∧ (∀ i : Fin 16, i ∈ s.requestQueue ↔ s.entries[i].state = .queued) ∧
  (∀ i : Fin 16, TimerOk s.entries[i]) ∧ (∀ i : Fin 16, EntryOk s i)

/-- The requester side's predicate. -/
def RequestInv (s : State) : Prop := LineInv s ∧ RequestsOk s

/-! ### The Frame Buffer Pool (R146, R147) -/

/-- A buffer is held by an owner exactly where the owner's record names it, and a FREE entry holds none. -/
def PoolInv (s : State) : Prop :=
  (∀ (b : Fin 24) (i : Fin 16), s.buffers[b].owner = some (.entry i) ↔ s.entries[i].buffer = some b) ∧
  (∀ (b : Fin 24) (k : Fin 8), s.buffers[b].owner = some (.operation k) ↔
    (s.slots[k]).bind Operation.buffer = some b) ∧
  (∀ i : Fin 16, s.entries[i].state = .free → s.entries[i].buffer = none)

/-! ### Operations, windows and replay records (R2, R23, R24, R42, R44, R50) -/

/-- The operation in a slot, when it is EXECUTING. -/
def executing (s : State) (k : Fin 8) : Option Operation :=
  match s.slots[k] with
  | none => none
  | some op => if op.phase = .executing then some op else none

/-- How many operations are executing against a window (R2). -/
def executingCount (s : State) (w : Fin 32) : Nat :=
  (List.finRange 8).countP fun k => (executing s k).bind Operation.window == some w

/-- How many jobs, listed or started, are the operation's in slot `k`. -/
def operationJobs (s : State) (k : Fin 8) : Nat :=
  (s.engine.responder.countP fun j => j.owner == .operation k) +
    (s.engine.job.map Job.owner == some (.operation k)).toNat

/-- What an operation's phase says of its record, its job and the send order (R23, R44). -/
def SlotOk (s : State) (k : Fin 8) : Prop :=
  match s.slots[k] with
  | none => operationJobs s k = 0 ∧ k ∉ s.sendOrder
  | some op =>
    op.sendCount ≤ 3 ∧
    match op.phase with
    | .executing =>
      operationJobs s k = 1 ∧ k ∉ s.sendOrder ∧ op.response = none ∧ op.kind ≠ .signal ∧
      match op.window with
      | none => False
      | some w => (op.mailboxSlot.isSome = true ↔ s.windows[w].kind = .mailbox)
    | .answering => operationJobs s k = 0 ∧ k ∈ s.sendOrder ∧ op.response.isSome = true

/-- What a window entry's state and kind say of its counts and flags (R1, R2, R8 to R11, R50). -/
def WindowOk (s : State) (w : Fin 32) : Prop :=
  s.windows[w].inUse = executingCount s w ∧
  (match s.windows[w].state with
    | .free => s.windows[w] = .cleared
    | .opened => s.windows[w].touched = false ∧ s.windows[w].quietWanted = false
    | .parked => s.windows[w].quietWanted = true → 1 ≤ s.windows[w].inUse
    | .closing => s.windows[w].touched = false ∧ s.windows[w].quietWanted = true ∧ 1 ≤ s.windows[w].inUse) ∧
  match s.windows[w].kind with
  | .memory =>
    s.windows[w].slotCount = 0 ∧ s.windows[w].head = 0 ∧ s.windows[w].committed = 0 ∧ s.windows[w].reserved = 0
  | .mailbox =>
    s.windows[w].limit = 0 ∧ 2 ≤ s.windows[w].slotCount ∧ s.windows[w].slotCount ≤ 256 ∧
    s.windows[w].head < s.windows[w].slotCount ∧ s.windows[w].reserved = s.windows[w].inUse ∧
    s.windows[w].committed + s.windows[w].reserved ≤ s.windows[w].slotCount

/-- A response in hand is the head of the send order (R44, R133). -/
def ResponseInHand (s : State) : Prop :=
  ∀ h k, s.line.hand = some h → h.owner = .response k → s.line.state = .contending ∨ s.line.state = .sending →
    s.sendOrder.head? = some k

/-- The responder side's predicate. -/
def ServeInv (s : State) : Prop :=
  LineInv s ∧ s.sendOrder.Nodup ∧ (∀ k : Fin 8, SlotOk s k) ∧ (∀ w : Fin 32, WindowOk s w) ∧ ResponseInHand s

/-- The operation in slot `k` is an executing PUT whose replay record is record `n`. -/
def executingPut (s : State) (n : Fin 512) (k : Fin 8) : Bool :=
  match executing s k with
  | none => false
  | some op => op.kind == .put && replayIndex op.requester op.tag.entry == n

/-- A replay record is PENDING exactly while one executing PUT has it, and carries that PUT's incarnation and epoch
(R42). -/
def ReplayOk (s : State) : Prop :=
  (∀ n : Fin 512, s.replay[n].state = .pending ↔ ∃ k, executingPut s n k = true) ∧
  (∀ n k k', executingPut s n k = true → executingPut s n k' = true → k = k') ∧
  (∀ n k op, executingPut s n k = true → s.slots[k] = some op →
    s.replay[n].incarnation = op.incarnation ∧ s.replay[n].epoch = op.tag.epoch)

/-- The responder side's predicate with the Replay Table's. -/
def ReplayInv (s : State) : Prop := ServeInv s ∧ ReplayOk s

/-! ### Words the statements use -/

/-- The thirteen commands written to CMD that an owner takes, each with its code and its owner's part (R179, R196). -/
def ownedCommands : List (Instr × Word × (State → State × Result)) :=
  [(.winOpen, 1, winOpen), (.winPark, 2, winPark), (.winUnpark, 3, winUnpark), (.winClose, 4, winClose),
    (.winGrants, 5, winGrants), (.winQuery, 6, winQuery), (.mboxConsume, 7, mboxConsume), (.chLoad, 16, chLoad),
    (.chStart, 17, chStart), (.chAbort, 18, chAbort), (.chClear, 19, chClear), (.chQuery, 20, chQuery),
    (.lineRestart, 32, lineRestart)]

/-- The commands of the Window Table with the states in which each is taken (section 1.2). -/
def windowCommands : List (Instr × Word × List WindowState) :=
  [(.winOpen, 1, [.free]), (.winPark, 2, [.opened]), (.winUnpark, 3, [.parked]), (.winClose, 4, [.opened, .parked]),
    (.winGrants, 5, [.opened, .parked]), (.winQuery, 6, [.free, .opened, .parked, .closing]),
    (.mboxConsume, 7, [.opened, .parked])]

/-- The commands of the Channel Unit with the states in which each is taken (section 4.3). -/
def channelCommands : List (Instr × Word × List ChannelState) :=
  [(.chLoad, 16, [.idle, .ready, .done, .faulted]), (.chStart, 17, [.ready]),
    (.chAbort, 18, [.running, .finishing, .signalling, .halting]), (.chClear, 19, [.done, .faulted]),
    (.chQuery, 20, [.idle, .ready, .running, .finishing, .signalling, .halting, .faulted, .done])]

/-- A field as it goes on the line: most significant bit first (R122). -/
def msbFirst {n : Nat} (v : BitVec n) : List Bool := (List.range n).map v.getMsbD

/-- The state after a command written to CMD that its owner has answered. -/
def State.answered (s : State) (code : Word) (r : Result) : State := { s with cmd := code, result := r }

/-- The state in which a frame has been taken in hand and its round has begun (R131, R133). -/
def State.contending (s : State) (h : Hand) : State :=
  s.setLine { s.line with state := .contending, hand := some h, aborting := false }

/-- The engine after a job is selected: REQUESTING with a fresh grant wait, or MOVING at once when the grant stands
already (R152, R153). -/
def engineStarted (e : Engine) (lbgnt : Bool) (limit : Nat) (j : Job) : Engine :=
  { e with
    job := some { j with phase := if lbgnt then .moving else .requesting }
    timer := if lbgnt then none else some limit
    lbreq := true }

/-- A channel at the end of a pass: DONE, or reloaded into READY or, when paced, into RUNNING with pace armed no (R85,
R86). -/
def passEnded (r : Channel) : Channel :=
  if r.reload then
    { r with
      live := r.live - 1
      state := if r.paced then .running else .ready
      currentRemote := r.initialRemote
      currentLocal := r.initialLocal
      remaining := r.initialCount
      armed := if r.paced then false else r.armed }
  else { r with live := r.live - 1, state := .done }

/-- The channel fault codes in the order of their values, 0 to 8 (R197). -/
def faultCodes : List FaultCode :=
  [.none, .absent, .denied, .range, .remoteFault, .noAnswer, .heldTooLong, .localFault, .aborted]

/-! What an entry's end leaves at its owner: words for the statements about send results, timers, answers and job
ends. In each of them entry `i` is freed, keeping its epoch alone (log 20), and its buffer returns to the Pool. -/

/-- Entry `i` freed with its buffer (R98, R115, R117; log 20). -/
def State.entryFreed (s : State) (i : Fin 16) : State :=
  (s.returnBuffer s.entries[i].buffer).setEntry i (Entry.freeWith s.entries[i].epoch)

/-- Entry `i` of a HALTING channel `c` completes, fails or is freed: live entries falls by 1 and the fault fields stay;
the last one takes the channel to FAULTED with CHANNEL_FAULT (R90, R91, R116). -/
def State.settledInHalt (s : State) (i : Fin 16) (c : Fin 8) : State :=
  let r := s.channels[c]
  if 1 < r.live then (s.entryFreed i).setChannel c { r with live := r.live - 1 }
  else
    ((s.entryFreed i).setChannel c { r with live := 0, state := .faulted }).post
      (.channelFault c r.faultCode r.faultOffset r.faultAtSignal)

/-- Entry `i` of channel `c` completes OK: live entries falls by 1; the last one of a FINISHING channel calls for its
signal or ends the pass, a SIGNALLING channel's ends the pass, and under HALTING it settles (R83 to R86, R90, R110). -/
def State.entryCompleted (s : State) (i : Fin 16) (c : Fin 8) : State :=
  let r := s.channels[c]
  match r.state with
  | .halting => s.settledInHalt i c
  | .signalling => ((s.entryFreed i).setChannel c (passEnded r)).post (.channelEnd c r.reload)
  | .finishing =>
    if 1 < r.live then (s.entryFreed i).setChannel c { r with live := r.live - 1 }
    else if r.signal.isSome then (s.entryFreed i).setChannel c { r with live := 0, state := .signalling }
    else ((s.entryFreed i).setChannel c (passEnded r)).post (.channelEnd c r.reload)
  | _ => (s.entryFreed i).setChannel c { r with live := r.live - 1 }

/-- Whether the halt that entry `i`'s failure brings to channel `c` withdraws its entry `k`: QUEUED, HOLDING, or STAGING
with its read not started (R89, step 2). -/
def withdrawn (s : State) (i : Fin 16) (c : Fin 8) (k : Fin 16) : Bool :=
  k != i && s.entries[k].owner == some c &&
    (s.entries[k].state == .queued || s.entries[k].state == .holding ||
      s.entries[k].state == .staging && s.engine.requester.any fun j => j.owner == .entry k)

/-- Whether the Line Access Unit contends with entry `k`, QUEUED, as its frame in hand (R134). -/
def contendingWith (s : State) (k : Fin 16) : Bool :=
  s.entries[k].state == .queued && s.line.state == .contending && s.line.hand.map Hand.owner == some (.request k)

/-- Whether a job is no entry's of `gone`. -/
def Job.ofNone (gone : Fin 16 → Bool) (j : Job) : Bool :=
  match j.owner with
  | .entry k => !gone k
  | _ => true

/-- A buffer, returned to the Pool when its owner is an entry of `gone`. -/
def Buffer.without (gone : Fin 16 → Bool) (b : Buffer) : Buffer :=
  match b.owner with
  | some (.entry k) => if gone k then { b with owner := none } else b
  | _ => b

/-- The first final failure of a pass, at entry `i` of channel `c` (R89, R91, R115): the fault fields are set, entries
not yet sent are withdrawn, and live entries falls for the failed one and for each withdrawn; the channel is HALTING,
or FAULTED with CHANNEL_FAULT when none is left. A withdrawn entry is freed, or RELEASING while its round runs (R134). -/
def State.firstFailure (s : State) (i : Fin 16) (c : Fin 8) (code : FaultCode) : State :=
  let r := s.channels[c]
  let e := s.entries[i]
  let live := r.live - 1 - (List.finRange 16).countP (withdrawn s i c)
  let t := { s.entryFreed i with
    entries := Vector.ofFn fun k =>
      if withdrawn s i c k then
        if contendingWith s k then { s.entries[k] with state := .releasing, owner := none, timer := .stopped }
        else Entry.freeWith s.entries[k].epoch
      else (s.entryFreed i).entries[k]
    requestQueue := s.requestQueue.filter fun k => !withdrawn s i c k
    engine := { s.engine with requester := s.engine.requester.filter (Job.ofNone (withdrawn s i c)) }
    buffers := (s.entryFreed i).buffers.map (Buffer.without fun k => withdrawn s i c k && !contendingWith s k)
    channels := s.channels.set c
      { r with state := if live = 0 then .faulted else .halting, faultCode := code, faultOffset := e.remoteOffset
               faultAtSignal := decide (e.kind = .signal), live := live } }
  if live = 0 then t.post (.channelFault c code e.remoteOffset (decide (e.kind = .signal))) else t

/-! What an operation's end leaves at its window. -/

/-- The window and the notices when the in-use count falls by 1: at 0 a PARKED entry with quiet wanted is quiet, and a
CLOSING one is FREE with every field cleared (R11, R19). -/
def drained (i : Fin 32) (w : WindowEntry) : WindowEntry × List Notice :=
  if 1 < w.inUse then ({ w with inUse := w.inUse - 1 }, [])
  else
    match w.state with
    | .parked => ({ w with inUse := 0, quietWanted := false }, if w.quietWanted then [.windowQuiet i] else [])
    | .closing => (freeWindow, [.windowClosed i])
    | _ => ({ w with inUse := 0 }, [])

/-- The window and the notices at the execution end of an operation, in the order of R53 and R54: the commit of its
mailbox slot, with MAILBOX_ARRIVAL when nothing was committed and the entry is OPEN or PARKED (not CLOSING, R61); then
`fault`; then the drain. -/
def executionEnd (i : Fin 32) (w : WindowEntry) (slot : Option Nat) (fault : List Notice) : WindowEntry × List Notice :=
  match slot with
  | none => ((drained i w).1, fault ++ (drained i w).2)
  | some p =>
    let w' := { w with committed := w.committed + 1, reserved := w.reserved - 1, sequence := w.sequence + 1 }
    ((drained i w').1,
      (if w.committed = 0 ∧ (w.state = .opened ∨ w.state = .parked) then [.mailboxArrival i p] else []) ++ fault ++
        (drained i w').2)

/-- The state once the engine's ended job is let go, its owner having acted: LBREQ is released and the engine idle, or
the head of the responder list, else of the requester list, is selected in the same event and LBREQ asserted again for
it (R152, R157). That the lists are those the owner left is log 23. -/
def State.jobLetGo (s : State) : State :=
  s.setEngine
    (match s.engine.responder, s.engine.requester with
    | j :: rest, _ => engineStarted { s.engine with responder := rest } s.pins.lbgnt (grantLimit s j) j
    | [], j :: rest => engineStarted { s.engine with requester := rest } s.pins.lbgnt (grantLimit s j) j
    | [], [] => { s.engine with job := none, timer := none, lbreq := false })

/-- What queueing a responder job leaves in the engine: behind the list while a job is started, selected at once by
an idle engine (R151, R152). -/
def ResponderQueued (s t : State) (j : Job) : Prop :=
  (s.engine.job ≠ none → t.engine = { s.engine with responder := s.engine.responder ++ [j] }) ∧
  (s.engine.job = none → s.engine.responder = [] →
    t.engine = engineStarted s.engine s.pins.lbgnt (grantLimit s j) j)

/-- The same for a requester job. -/
def RequesterQueued (s t : State) (j : Job) : Prop :=
  (s.engine.job ≠ none → t.engine = { s.engine with requester := s.engine.requester ++ [j] }) ∧
  (s.engine.job = none → s.engine.responder = [] → s.engine.requester = [] →
    t.engine = engineStarted s.engine s.pins.lbgnt (grantLimit s j) j)

/-- A frame is received in RECEIVING at a RUNNING station, and its CRC is in place. -/
def Receives (s : State) (conds : List LineCond) (f : Frame) : Prop :=
  s.loader.station = .running ∧ s.line.state = .receiving ∧ s.line.rx = .receiving ∧ receive conds = some f

end Sys2Proof.Machine
end

