-- ==== Sys2Proof/Certificates/Slice0/Obligations.lean ====
section
/-! DEFINITION. The statements for the provers: what the block does at each command, and what every step keeps. -/

open Sys2Proof Sys2Proof.Machine

/-! ### The queue of commands -/

/-- A step takes the command at the front of the queue and runs it on the rest; on an empty queue the block idles (the
queue is the model's own, log 3). -/
def Obligations.StepTakesFrontCommand : Prop :=
  (∀ (c : Instr) (rest : List Instr) (s : State),
    s.pending = c :: rest → step s = exec c { s with pending := rest }) ∧
  (∀ s : State, s.pending = [] → step s = .next s)

/-! ### The Local Port (R169, R170, R177 to R182, R196) -/

/-- R179: an unknown code, STATION_RESET, a station not RUNNING, and the owner's answer, in that order. -/
def Obligations.CmdWriteTakesItsCode : Prop :=
  ∀ s : State, s.pins.resetHeld = false →
    (∀ (value : Word) (enables : BitVec 4), enabledWord value enables ∉ [1, 2, 3, 4, 5, 6, 7, 16, 17, 18, 19, 20, 32, 48] →
      exec (.unknownCommand value enables) s = .next (s.answered (enabledWord value enables) .unknownCommand)) ∧
    (∀ straps : Station, exec (.stationReset straps) s = .next (s.fullReset.beginStart straps)) ∧
    (∀ p ∈ ownedCommands, s.loader.station ≠ .running → exec p.1 s = .next (s.answered p.2.1 .notReady)) ∧
    (∀ p ∈ ownedCommands, s.loader.station = .running →
      exec p.1 s =
        .next { (p.2.2 { s with cmd := p.2.1 }).1 with result := (p.2.2 { s with cmd := p.2.1 }).2 })

/-- R178: while RESET# is held every write to the port is ignored. -/
def Obligations.HeldPortIgnoresWrites : Prop :=
  ∀ s : State, s.pins.resetHeld = true →
    (∀ p ∈ ownedCommands, exec p.1 s = .next s) ∧
    (∀ straps : Station, exec (.stationReset straps) s = .next s) ∧
    (∀ (value : Word) (enables : BitVec 4), exec (.unknownCommand value enables) s = .next s) ∧
    (∀ value : Word, exec (.noticePop value) s = .next s) ∧
    (∀ (value : Word) (enables : BitVec 4), exec (.intEnable value enables) s = .next s) ∧
    (∀ (address : BitVec 24) (value : Word) (enables : BitVec 4),
      exec (.portWordWrite address value enables) s = .next s)

/-- R196: address bits LA2 to LA7 select one of 64 word positions. R177: a byte of a code word that is not enabled counts as
0. R177, R196: a write to an argument word replaces its enabled bytes; a read-only word or an empty position ignores
the write; a write that is another row's is taken as that row (log 10). -/
def Obligations.PortWordWrites : Prop :=
  ∀ (s : State) (address : BitVec 24) (value : Word) (enables : BitVec 4),
    portPosition address = address.toNat / 4 % 64 ∧
    (∀ k : Fin 4, (enabledWord value enables).extractLsb' (8 * k.val) 8 =
      if enables.getLsbD k.val then value.extractLsb' (8 * k.val) 8 else 0) ∧
    (s.pins.resetHeld = false → ∀ p : Fin 6, portPosition address = p.val + 1 →
      ∃ t, exec (.portWordWrite address value enables) s = .next t ∧ { t with args := s.args } = s ∧
        (∀ q : Fin 6, q ≠ p → t.args[q] = s.args[q]) ∧
        ∀ k : Fin 4, (t.args[p]).extractLsb' (8 * k.val) 8 =
          if enables.getLsbD k.val then value.extractLsb' (8 * k.val) 8
          else (s.args[p]).extractLsb' (8 * k.val) 8) ∧
    (7 ≤ portPosition address → portPosition address ≤ 13 ∨ 16 ≤ portPosition address →
      exec (.portWordWrite address value enables) s = .next s) ∧
    (portPosition address = 0 →
      exec (.portWordWrite address value enables) s = exec (.unknownCommand value enables) s) ∧
    (portPosition address = 14 → exec (.portWordWrite address value enables) s = exec (.noticePop value) s) ∧
    (portPosition address = 15 →
      exec (.portWordWrite address value enables) s = exec (.intEnable value enables) s) ∧
    (∀ p ∈ ownedCommands, enabledWord value enables = p.2.1 →
      exec (.unknownCommand value enables) s = exec p.1 s) ∧
    (enabledWord value enables = 48 →
      exec (.unknownCommand value enables) s = exec (.stationReset s.pins.straps) s)

/-- R170: a pop removes the head; on an empty queue it changes nothing; one that removes the marker leaves the queue
empty; a read of NOTICE_POP gives 0. R171, R196: a write to INT_ENABLE with byte 0 enabled sets the enable from bit 0,
and INT follows the count and the enable; with byte 0 not enabled it changes nothing. -/
def Obligations.NoticePortWrites : Prop :=
  (∀ (s : State) (value : Word), s.pins.resetHeld = false →
      exec (.noticePop value) s =
        .next { s with notices :=
          ⟨s.notices.records.tail, s.notices.enable, s.notices.enable && !s.notices.records.tail.isEmpty⟩ } ∧
      (NoticesOk s.notices → s.notices.records = [] → exec (.noticePop value) s = .next s) ∧
      (NoticesOk s.notices → s.notices.records.head? = some .overflow → s.notices.records.tail = []) ∧
      (∀ address, portPosition address = 14 → portRead address s = 0)) ∧
  (∀ (s : State) (value : Word) (enables : BitVec 4), s.pins.resetHeld = false →
      (enables.getLsbD 0 = true →
        exec (.intEnable value enables) s =
          .next { s with notices :=
            ⟨s.notices.records, value.getLsbD 0, value.getLsbD 0 && !s.notices.records.isEmpty⟩ }) ∧
      (enables.getLsbD 0 = false → exec (.intEnable value enables) s = .next s))

/-- R167, R168: where a post is stored, by the marker and the count; the queue stays well formed. -/
def Obligations.PostFindsRoom : Prop :=
  ∀ (q : NoticeQueue) (n : Notice), NoticesOk q → n ≠ .overflow →
    NoticesOk (q.post n) ∧ (q.post n).enable = q.enable ∧
    (Notice.overflow ∉ q.records → q.records.length ≤ 31) ∧
    (Notice.overflow ∉ q.records → q.records.length ≤ 30 → (q.post n).records = q.records ++ [n]) ∧
    (Notice.overflow ∉ q.records → q.records.length = 31 → (q.post n).records = q.records ++ [.overflow]) ∧
    (Notice.overflow ∈ q.records → q.records.length ≤ 31 →
      (q.post n).records = q.records.dropLast ++ [n, .overflow]) ∧
    (Notice.overflow ∈ q.records → q.records.length = 32 → (q.post n).records = q.records)

/-- R169, R182, R196, R197: what a read of each word that is not written as stored returns, with every code spelled: a
code is a value's place in its rule's list. -/
def Obligations.PortReads : Prop :=
  ∀ (s : State) (address : BitVec 24),
    (portPosition address = 7 → (portRead address s).toNat =
      [Result.none, .done, .pending, .badArg, .wrongState, .notReady, .unknownCommand].idxOf s.result) ∧
    (portPosition address = 8 → (portRead address s).toNat =
      [StationState.starting, .running, .startFailed].idxOf s.loader.station +
        16 * [LineState.offline, .joining, .idle, .contending, .sending, .receiving, .silent].idxOf s.line.state +
        256 * (if s.pins.resetHeld then s.pins.straps else s.loader.number).toNat +
        65536 * [none, some StartReason.memory, some .format, some .checksum, some .range].idxOf s.loader.reason +
        16777216 * (s.notices.records.contains .overflow).toNat) ∧
    (portPosition address = 9 → s.notices.records.length ≤ 32 →
      (portRead address s).toNat = s.notices.records.length) ∧
    (s.notices.records = [] → 10 ≤ portPosition address → portPosition address ≤ 13 → portRead address s = 0) ∧
    (∀ (n : Notice) (rest : List Notice) (w : List Nat), s.notices.records = n :: rest →
      w = (match n with
        | .channelEnd c reloaded => [1, c.val, reloaded.toNat, 0]
        | .channelFault c code offset atSignal => [2, c.val + 256 * atSignal.toNat, faultCodes.idxOf code, offset]
        | .windowTouched i sender offset => [3, i.val, sender.toNat, offset]
        | .windowQuiet i => [4, i.val, 0, 0]
        | .windowClosed i => [5, i.val, 0, 0]
        | .mailboxArrival i slot => [6, i.val, slot, 0]
        | .remoteSignal sender value => [7, sender.toNat, value.toNat, 0]
        | .localFault i localAddress slot => [8, i.val, localAddress, slot.getD 256]
        | .lineJoined how lastWinner => [9, [JoinedHow.frame, .quiet].idxOf how, lastWinner.toNat, 0]
        | .lineSilent clashes => [10, clashes, 0, 0]
        | .startFailed reason => [11, 1 + [StartReason.memory, .format, .checksum, .range].idxOf reason, 0, 0]
        | .overflow => [12, 0, 0, 0]) →
      ∀ p : Fin 4, portPosition address = 10 + p.val → portRead address s = BitVec.ofNat 32 (w.getD p.val 0)) ∧
    (portPosition address = 15 → portRead address s = if s.notices.enable then 1 else 0) ∧
    (16 ≤ portPosition address → portRead address s = 0) ∧
    (portPosition address = 0 → portRead address s = s.cmd) ∧
    (∀ p : Fin 6, portPosition address = p.val + 1 → portRead address s = s.args[p])

/-! ### Windows (R4 to R19, R51, R53, R54, R56) -/

/-- R5, R6: WIN_OPEN fills a FREE entry from its arguments. R8: WIN_PARK on an OPEN entry, quiet already or waiting
for a drain. R9, R12: WIN_UNPARK on a PARKED entry; WIN_GRANTS on an OPEN or PARKED one. R10, R11: WIN_CLOSE, at once
or through a drain. R198: bits 0 to 7 of ARG0 are the window and bits 8 to 15 the kind. -/
def Obligations.WindowCommandsChangeEntry : Prop :=
  (∀ (s : State) (i : Fin 32), Ready s → argWindow s = i.val → s.windows[i].state = .free →
    (argKind s = 0 → s.args[1].toNat ≤ 16777215 → s.args[2].toNat ≤ 16777215 →
      s.args[1].toNat + s.args[2].toNat ≤ 16777215 →
      exec .winOpen s = .next ((s.answered 1 .done).setWindow i
        { state := .opened, kind := .memory, base := s.args[1].toNat, limit := s.args[2].toNat, slotCount := 0
          readGrants := s.args[3], writeGrants := s.args[4], inUse := 0, touched := false, quietWanted := false
          head := 0, committed := 0, reserved := 0, sequence := 0 })) ∧
    (argKind s = 1 → s.args[1].toNat ≤ 16777215 → s.args[1].toNat % 8 = 0 → 2 ≤ s.args[2].toNat →
      s.args[2].toNat ≤ 256 → s.args[1].toNat + s.args[2].toNat * 72 - 1 ≤ 16777215 →
      exec .winOpen s = .next ((s.answered 1 .done).setWindow i
        { state := .opened, kind := .mailbox, base := s.args[1].toNat, limit := 0, slotCount := s.args[2].toNat
          readGrants := s.args[3], writeGrants := s.args[4], inUse := 0, touched := false, quietWanted := false
          head := 0, committed := 0, reserved := 0, sequence := 0 }))) ∧
  (∀ (s : State) (i : Fin 32), Ready s → argWindow s = i.val → s.windows[i].state = .opened →
      (s.windows[i].inUse = 0 →
        exec .winPark s =
          .next ((s.answered 2 .done).setWindow i { s.windows[i] with state := .parked })) ∧
      (0 < s.windows[i].inUse →
        exec .winPark s =
          .next ((s.answered 2 .pending).setWindow i { s.windows[i] with state := .parked, quietWanted := true }))) ∧
  (∀ (s : State) (i : Fin 32), Ready s → argWindow s = i.val →
      (s.windows[i].state = .parked →
        exec .winUnpark s = .next ((s.answered 3 .done).setWindow i
          { s.windows[i] with state := .opened, touched := false, quietWanted := false })) ∧
      (s.windows[i].state = .opened ∨ s.windows[i].state = .parked →
        exec .winGrants s = .next ((s.answered 5 .done).setWindow i
          { s.windows[i] with readGrants := s.args[3], writeGrants := s.args[4] }))) ∧
  (∀ (s : State) (i : Fin 32), Ready s → argWindow s = i.val →
      s.windows[i].state = .opened ∨ s.windows[i].state = .parked →
      (s.windows[i].inUse = 0 →
        exec .winClose s = .next ((s.answered 4 .done).setWindow i freeWindow)) ∧
      (0 < s.windows[i].inUse →
        exec .winClose s = .next ((s.answered 4 .pending).setWindow i
          { s.windows[i] with state := .closing, quietWanted := true, touched := false }))) ∧
  (∀ s : State, argWindow s = (s.args[0].extractLsb' 0 8).toNat ∧ argKind s = (s.args[0].extractLsb' 8 8).toNat)

/-- R56: MBOX_CONSUME's checks in their order, and the slots it gives back from the head. -/
def Obligations.MboxConsumeMovesHead : Prop :=
  (∀ s : State, Ready s →
    (32 ≤ argWindow s → exec .mboxConsume s = .next (s.answered 7 .badArg)) ∧
    ∀ i : Fin 32, argWindow s = i.val →
      (s.windows[i].state = .free ∨ s.windows[i].state = .closing →
        exec .mboxConsume s = .next (s.answered 7 .wrongState)) ∧
      (s.windows[i].state = .opened ∨ s.windows[i].state = .parked →
        (s.windows[i].kind = .memory ∨ s.args[1].toNat = 0 ∨ s.windows[i].committed < s.args[1].toNat →
          exec .mboxConsume s = .next (s.answered 7 .badArg)) ∧
        (s.windows[i].kind = .mailbox → 1 ≤ s.args[1].toNat → s.args[1].toNat ≤ s.windows[i].committed →
          exec .mboxConsume s = .next ((s.answered 7 .done).setWindow i
            { s.windows[i] with
              head := (s.windows[i].head + s.args[1].toNat) % s.windows[i].slotCount
              committed := s.windows[i].committed - s.args[1].toNat })))) ∧
  (∀ s : State, s.pins.resetHeld = false → s.loader.station ≠ .running →
    exec .mboxConsume s = .next (s.answered 7 .notReady))

/-- R4, R5: a window command refused at any step answers its result and changes nothing else. -/
def Obligations.WindowCommandsRefused : Prop :=
  ∀ s : State, Ready s →
    (∀ p ∈ windowCommands, 32 ≤ argWindow s → exec p.1 s = .next (s.answered p.2.1 .badArg)) ∧
    (∀ p ∈ windowCommands, ∀ i : Fin 32, argWindow s = i.val → s.windows[i].state ∉ p.2.2 →
      exec p.1 s = .next (s.answered p.2.1 .wrongState)) ∧
    (∀ i : Fin 32, argWindow s = i.val → s.windows[i].state = .free →
      (2 ≤ argKind s ∨ 16777216 ≤ s.args[1].toNat ∨
        (argKind s = 0 ∧ 16777215 < s.args[1].toNat + s.args[2].toNat) ∨
        (argKind s = 1 ∧ (s.args[1].toNat % 8 ≠ 0 ∨ s.args[2].toNat < 2 ∨ 256 < s.args[2].toNat ∨
          16777216 < s.args[1].toNat + s.args[2].toNat * 72))) →
      exec .winOpen s = .next (s.answered 1 .badArg))

/-- R13, R72, R181, R197, R198: a query copies its entry or record into the six argument words, every unassigned bit 0;
a code is a value's place in its rule's list. -/
def Obligations.QueriesCopyRecords : Prop :=
  (∀ (s : State) (i : Fin 32) (w : WindowEntry), Ready s → argWindow s = i.val → s.windows[i] = w →
    w.base < 16777216 → w.limit < 16777216 → w.slotCount ≤ 256 → w.inUse ≤ 8 → w.reserved ≤ 8 → w.head < 256 →
    w.committed ≤ 256 →
    ∃ t, exec .winQuery s = .next t ∧ { t with args := s.args } = s.answered 6 .done ∧
      t.args[0].toNat = [WindowState.free, .opened, .parked, .closing].idxOf w.state +
        4 * [WindowKind.memory, .mailbox].idxOf w.kind + 8 * w.touched.toNat + 16 * w.quietWanted.toNat +
        256 * w.inUse + 4096 * w.reserved + 65536 * w.slotCount ∧
      t.args[1].toNat = w.base + 16777216 * w.head ∧ t.args[2].toNat = w.limit ∧
      t.args[3] = w.readGrants ∧ t.args[4] = w.writeGrants ∧
      t.args[5].toNat = w.sequence.toNat + 65536 * w.committed) ∧
  (∀ (s : State) (i : Fin 8) (r : Channel), Ready s → argChannel s = i.val → s.channels[i] = r →
    r.initialCount ≤ 16777216 → r.initialRemote < 16777216 → r.initialLocal < 16777216 →
    r.remaining ≤ 16777216 → r.frameSize ≤ 64 → r.depth ≤ 4 → r.live ≤ 4 → r.faultOffset ≤ 16777216 →
    ∃ t, exec .chQuery s = .next t ∧ { t with args := s.args } = s.answered 20 .done ∧
      t.args[0].toNat = r.initialCount +
        33554432 * [ChannelState.idle, .ready, .running, .finishing, .signalling, .halting, .faulted, .done].idxOf r.state +
        268435456 * faultCodes.idxOf r.faultCode ∧
      t.args[1].toNat = r.initialRemote + 16777216 * r.frameSize + 2147483648 * [Direction.push, .pull].idxOf r.direction ∧
      t.args[2].toNat = r.initialLocal + 16777216 * r.target.toNat + 536870912 * r.depth ∧
      t.args[3].toNat = r.faultOffset % 16777216 + 16777216 * r.window.toNat + 536870912 * r.live ∧
      t.args[4].toNat = r.remaining + 33554432 * r.mailbox.toNat + 67108864 * r.reload.toNat +
        134217728 * r.paced.toNat + 268435456 * r.signal.isSome.toNat + 536870912 * r.armed.toNat +
        1073741824 * r.faultAtSignal.toNat + 2147483648 * (r.faultOffset / 16777216) ∧
      t.args[5] = r.signal.getD 0)

/-- R14 to R17, R51: the Window Table's six checks, the first that fails deciding; with none failing the request is
admitted. -/
def Obligations.AdmissionChecksInOrder : Prop :=
  ∀ (w : WindowEntry) (write : Bool) (sender : Station) (offset length : Nat),
    windowRefusal w write sender offset length =
      if w.state = .free ∨ w.state = .closing then some .absent
      else if write = false ∧ w.kind = .mailbox then some .denied
      else if (if write then w.writeGrants else w.readGrants).getLsbD sender.toNat = false then some .denied
      else if (w.kind = .memory ∧ w.limit + 1 < offset + length) ∨ (w.kind = .mailbox ∧ 0 < offset) then
        some .range
      else if w.state = .parked then some .parked
      else if w.kind = .mailbox ∧ w.committed + w.reserved = w.slotCount then some .full
      else none

/-- R19: the in-use count falls by 1 and at 0 the drain completes by the entry's state. -/
def Obligations.ExecutionEndDrains : Prop :=
  ∀ (s : State) (i : Fin 32) (w : WindowEntry), s.windows[i] = w → 1 ≤ w.inUse →
    (1 < w.inUse → s.endUse i = s.setWindow i { w with inUse := w.inUse - 1 }) ∧
    (w.inUse = 1 →
      (w.state = .opened → s.endUse i = s.setWindow i { w with inUse := 0 }) ∧
      (w.state = .parked → w.quietWanted = true →
        s.endUse i = (s.setWindow i { w with inUse := 0, quietWanted := false }).post (.windowQuiet i)) ∧
      (w.state = .parked → w.quietWanted = false → s.endUse i = s.setWindow i { w with inUse := 0 }) ∧
      (w.state = .closing →
        s.endUse i = (s.setWindow i freeWindow).post (.windowClosed i)))

/-! ### Transfer channels (R67 to R93) -/

/-- R68, R69, R62: CH_LOAD fills the record from arguments that pass every check. Where each argument stands in ARG0 to
ARG5 is the CH_LOAD row of R198. -/
def Obligations.ChLoadFillsRecord : Prop :=
  (∀ (s : State) (c : Fin 8) (a : LoadArgs), Ready s → argChannel s = c.val → loadArgs s = a →
    s.channels[c].state = .idle ∨ s.channels[c].state = .ready ∨ s.channels[c].state = .done ∨
      s.channels[c].state = .faulted →
    a.direction ≤ 1 → a.target ≤ 31 → a.target ≠ s.loader.number.toNat → a.window ≤ 31 →
    a.remote ≤ 16777215 → a.local' ≤ 16777215 → a.count ≤ 16777216 → (a.count = 0 → a.signalPresent = true) →
    1 ≤ a.frameSize → a.frameSize ≤ 64 → 1 ≤ a.depth → a.depth ≤ 4 → (a.pacing = true → c.val ≤ 3) →
    (a.mailbox = true → a.direction = 0) → a.local' + a.count ≤ 16777216 → a.remote + a.count ≤ 16777216 →
    exec .chLoad s = .next ((s.answered 16 .done).setChannel c
      { state := .ready, direction := if a.direction = 0 then .push else .pull
        target := BitVec.ofNat 5 a.target, window := BitVec.ofNat 5 a.window, mailbox := a.mailbox
        initialRemote := a.remote, currentRemote := a.remote, initialLocal := a.local', currentLocal := a.local'
        initialCount := a.count, remaining := a.count, frameSize := a.frameSize
        depth := if a.mailbox then 1 else a.depth, reload := a.reload, paced := a.pacing
        signal := if a.signalPresent then some a.signalValue else none
        live := 0, armed := true, faultCode := .none, faultOffset := 0, faultAtSignal := false })) ∧
  (∀ s : State, argChannel s = (s.args[0].extractLsb' 0 8).toNat ∧ loadArgs s =
    { target := (s.args[0].extractLsb' 8 8).toNat, window := (s.args[0].extractLsb' 16 8).toNat
      direction := (s.args[0].extractLsb' 24 2).toNat, mailbox := s.args[0].getLsbD 26
      reload := s.args[0].getLsbD 27, pacing := s.args[0].getLsbD 28, signalPresent := s.args[0].getLsbD 29
      remote := s.args[1].toNat, local' := s.args[2].toNat, count := s.args[3].toNat
      frameSize := (s.args[4].extractLsb' 0 8).toNat, depth := (s.args[4].extractLsb' 8 8).toNat
      signalValue := s.args[5] })

/-- R70, R71: CH_START on a READY record; CH_CLEAR on a DONE or FAULTED one. -/
def Obligations.ChStartAndClear : Prop :=
  ∀ (s : State) (c : Fin 8), Ready s → argChannel s = c.val →
    (s.channels[c].state = .ready → 0 < s.channels[c].initialCount →
      exec .chStart s = .next ((s.answered 17 .done).setChannel c { s.channels[c] with state := .running })) ∧
    (s.channels[c].state = .ready → s.channels[c].initialCount = 0 →
      exec .chStart s = .next ((s.answered 17 .done).setChannel c { s.channels[c] with state := .signalling })) ∧
    (s.channels[c].state = .done ∨ s.channels[c].state = .faulted →
      exec .chClear s = .next ((s.answered 19 .done).setChannel c
        { s.channels[c] with state := .idle, faultCode := .none, faultOffset := 0, faultAtSignal := false }))

/-- R92, R93, R134: CH_ABORT faults the channel, posts its CHANNEL_FAULT and frees or releases each entry it owns by
the entry's state. R98: a freed entry is FREE and keeps its epoch, and that it holds 0 elsewhere, with 0 read as PUT, is the
model's choice (log 20); every statement about a freed entry means this record. -/
def Obligations.ChAbortReleasesEntries : Prop :=
  (∀ (s : State) (c : Fin 8) (r : Channel) (offset : Nat) (atSignal : Bool), Ready s → argChannel s = c.val →
    RequestsOk s → s.channels[c] = r →
    (r.state = .running ∨ r.state = .finishing) ∧ offset = r.currentRemote ∧ atSignal = false ∨
      r.state = .signalling ∧ offset = r.currentRemote ∧ atSignal = true ∨
      r.state = .halting ∧ offset = r.faultOffset ∧ atSignal = r.faultAtSignal →
    ∃ t, exec .chAbort s = .next t ∧
      { t with entries := s.entries, requestQueue := s.requestQueue, engine := s.engine, buffers := s.buffers } =
        ((s.answered 18 .done).setChannel c
          { r with state := .faulted, faultCode := .aborted, faultOffset := offset, faultAtSignal := atSignal
                   live := 0 }).post (.channelFault c .aborted offset atSignal) ∧
      t.requestQueue = s.requestQueue.filter (fun i => s.entries[i].owner != some c) ∧
      t.engine = { s.engine with requester := s.engine.requester.filter fun j =>
        match j.owner with
        | .entry i => s.entries[i].owner != some c
        | _ => true } ∧
      (∀ b : Fin 24, (∀ i, s.buffers[b].owner ≠ some (.entry i)) → t.buffers[b] = s.buffers[b]) ∧
      ∀ i : Fin 16,
        (s.entries[i].owner ≠ some c → t.entries[i] = s.entries[i] ∧
          ∀ b : Fin 24, s.buffers[b].owner = some (.entry i) → t.buffers[b] = s.buffers[b]) ∧
        (s.entries[i].owner = some c →
          (s.entries[i].state = .sent ∨ s.entries[i].state = .holding ∨
            (s.entries[i].state = .staging ∨ s.entries[i].state = .landing) ∧ (∃ j ∈ s.engine.requester, j.owner = .entry i) ∨
            s.entries[i].state = .queued ∧ inHand s i = false →
            t.entries[i] = Entry.freeWith s.entries[i].epoch ∧
            ∀ b : Fin 24, s.buffers[b].owner = some (.entry i) →
              t.buffers[b] = { s.buffers[b] with owner := none }) ∧
          (s.entries[i].state = .sending ∨
            (s.entries[i].state = .staging ∨ s.entries[i].state = .landing) ∧ (∀ j ∈ s.engine.requester, j.owner ≠ .entry i) ∨
            s.entries[i].state = .queued ∧ inHand s i = true →
            t.entries[i] = { s.entries[i] with state := .releasing, owner := none, timer := .stopped } ∧
            ∀ b : Fin 24, s.buffers[b].owner = some (.entry i) → t.buffers[b] = s.buffers[b]))) ∧
  (∀ epoch : BitVec 12, Entry.freeWith epoch =
    { state := .free, epoch := epoch, owner := none, kind := .put, target := 0, window := 0, mailbox := false
      remoteOffset := 0, localAddress := 0, length := 0, signalValue := 0, buffer := none, retry := 0, hold := 0
      timer := .stopped })

/-- R67, R68: a channel command refused at any step answers its result and changes nothing else. -/
def Obligations.ChannelCommandsRefused : Prop :=
  ∀ s : State, Ready s →
    (∀ p ∈ channelCommands, 8 ≤ argChannel s → exec p.1 s = .next (s.answered p.2.1 .badArg)) ∧
    (∀ p ∈ channelCommands, ∀ c : Fin 8, argChannel s = c.val → s.channels[c].state ∉ p.2.2 →
      exec p.1 s = .next (s.answered p.2.1 .wrongState)) ∧
    (∀ (c : Fin 8) (a : LoadArgs), argChannel s = c.val → loadArgs s = a →
      s.channels[c].state ∈ [ChannelState.idle, .ready, .done, .faulted] →
      (1 < a.direction ∨ 31 < a.target ∨ a.target = s.loader.number.toNat ∨ 31 < a.window ∨
        16777215 < a.remote ∨ 16777215 < a.local' ∨ 16777216 < a.count ∨
        (a.count = 0 ∧ a.signalPresent = false) ∨ a.frameSize = 0 ∨ 64 < a.frameSize ∨ a.depth = 0 ∨
        4 < a.depth ∨ (a.pacing = true ∧ 4 ≤ c.val) ∨ (a.mailbox = true ∧ a.direction = 1) ∨
        (0 < a.count ∧ 16777216 < a.local' + a.count) ∨ (0 < a.count ∧ 16777216 < a.remote + a.count)) →
      exec .chLoad s = .next (s.answered 16 .badArg))

/-- R74, R75, R84: which channels are eligible for a data request and which for their completion signal (that a signal
not yet formed in the pass is one with no live entry is the model's reading, log 18), and that the arbiter takes the
first one counting upward from the channel after the pointer. -/
def Obligations.ArbiterServesInTurn : Prop :=
  ∀ s : State,
    (∀ c : Fin 8, eligibleData s c = true ↔
      s.channels[c].state = .running ∧ 0 < s.channels[c].remaining ∧ s.channels[c].live < s.channels[c].depth ∧
      (s.channels[c].paced = true →
        (∃ n : Fin 4, n.val = c.val ∧ s.pins.pace[n] = true) ∧ s.channels[c].armed = true) ∧
      (∃ i : Fin 16, s.entries[i].state = .free) ∧ requesterHeld s < 16) ∧
    (∀ c : Fin 8, eligibleSignal s c = true ↔
      s.channels[c].state = .signalling ∧ s.channels[c].live = 0 ∧ ∃ i : Fin 16, s.entries[i].state = .free) ∧
    (∀ c : Fin 8, arbiterChoice s = some c ↔
      (eligibleData s c = true ∨ eligibleSignal s c = true) ∧
      ∀ d : Fin 8, eligibleData s d = true ∨ eligibleSignal s d = true →
        (c - s.pointer - 1).val ≤ (d - s.pointer - 1).val) ∧
    (∀ i : Fin 16, freeIndex s = some i ↔
      s.entries[i].state = .free ∧ ∀ k : Fin 16, k.val < i.val → s.entries[k].state ≠ .free)

/-- R76, R77, R78, R98, R100, R147: the formation of a data request for the arbiter's choice, in the lowest FREE
entry, with a buffer of the Pool; a PUSH queues its staging read and a PULL joins the Request Queue. R84: the
formation of a completion signal, which names no window and takes no buffer (its remote offset of 0 is log 19). -/
def Obligations.FormationsMakeRequests : Prop :=
  (∀ (s : State) (c : Fin 8) (i : Fin 16) (r : Channel) (len : Nat), PoolInv s → arbiterChoice s = some c →
    eligibleData s c = true → freeIndex s = some i → s.channels[c] = r → len = min r.frameSize r.remaining →
    ∃ (t : State) (b : Fin 24), exec .formation s = .next t ∧
      { t with pointer := s.pointer, channels := s.channels, entries := s.entries, engine := s.engine
               requestQueue := s.requestQueue, buffers := s.buffers } = s ∧
      t.pointer = c ∧ s.buffers[b].owner = none ∧
      t.buffers = s.buffers.set b { s.buffers[b] with owner := some (.entry i) } ∧
      t.channels = s.channels.set c
        { r with currentRemote := r.currentRemote + len, currentLocal := r.currentLocal + len
                 remaining := r.remaining - len, live := r.live + 1
                 state := if r.remaining - len = 0 then .finishing else r.state } ∧
      t.entries = s.entries.set i
        { state := if r.direction = .push then .staging else .queued, epoch := s.entries[i].epoch + 1
          owner := some c, kind := if r.direction = .push then .put else .get, target := r.target
          window := r.window, mailbox := r.mailbox, remoteOffset := r.currentRemote
          localAddress := r.currentLocal, length := len, signalValue := 0, buffer := some b
          retry := 0, hold := 0, timer := .stopped } ∧
      (r.direction = .push → t.requestQueue = s.requestQueue ∧
        RequesterQueued s t
          ⟨.read, .requester, r.currentLocal, len, some b, .entry i, .listed, 0, none, false⟩) ∧
      (r.direction = .pull → t.requestQueue = s.requestQueue ++ [i] ∧ t.engine = s.engine)) ∧
  (∀ (s : State) (c : Fin 8) (i : Fin 16) (value : Word), arbiterChoice s = some c →
    s.channels[c].state = .signalling → s.channels[c].live = 0 → s.channels[c].signal = some value → freeIndex s = some i →
    exec .signalFormation s = .next
      { s with
        pointer := c
        channels := s.channels.set c { s.channels[c] with live := 1 }
        entries := s.entries.set i
          { state := .queued, epoch := s.entries[i].epoch + 1, owner := some c, kind := .signal
            target := s.channels[c].target, window := 0, mailbox := false, remoteOffset := 0, localAddress := 0
            length := 0, signalValue := value, buffer := none, retry := 0, hold := 0, timer := .stopped }
        requestQueue := s.requestQueue ++ [i] })

/-- R81, R87: a PACE input that becomes asserted arms a paced RUNNING channel, and sends one with count 0 to
SIGNALLING; one that becomes deasserted changes its level alone. -/
def Obligations.PaceInputsArmChannels : Prop :=
  ∀ (s : State) (n : Fin 4) (c : Fin 8), c.val = n.val →
    (s.pins.pace[n] = false → s.channels[c].paced = true → s.channels[c].state = .running →
      s.channels[c].armed = false →
      exec (.paceAsserted n) s = .next (({ s with pins := { s.pins with pace := s.pins.pace.set n true } }).setChannel c
        { s.channels[c] with armed := true
                             state := if s.channels[c].initialCount = 0 then .signalling else .running })) ∧
    (s.pins.pace[n] = false →
      s.channels[c].paced = false ∨ s.channels[c].state ≠ .running ∨ s.channels[c].armed = true →
      exec (.paceAsserted n) s = .next { s with pins := { s.pins with pace := s.pins.pace.set n true } }) ∧
    (s.pins.pace[n] = true → exec (.paceAsserted n) s = .next s) ∧
    exec (.paceDeasserted n) s = .next { s with pins := { s.pins with pace := s.pins.pace.set n false } }

/-! ### The shared line: offering and sending (R103 to R107, R114, R133 to R143, R45, R46) -/

/-- R133, R136, R45, R103: at a start opportunity in IDLE the head response, or else the head request, is taken in
hand with a claim word of its class, rank and sender; otherwise nothing happens, but that an abort mark of the station's
own is over by a start opportunity in IDLE (log 29). -/
def Obligations.StartOpportunityOffers : Prop :=
  ∀ (s : State) (rk : BitVec 5),
    rk.toNat = (match s.loader.config.policy with
      | .rotating => (s.loader.number.toNat + 63 - s.line.lastWinner.toNat) % 32
      | .fixed => s.loader.number.toNat) →
    (s.line.state ≠ .idle → exec .startOpportunity s = .next s) ∧
    (s.line.state = .idle → s.sendOrder = [] → s.requestQueue = [] →
      exec .startOpportunity s = .next (s.setLine { s.line with aborting := false })) ∧
    (s.line.state = .idle → ∀ k rest op, s.sendOrder = k :: rest → s.slots[k] = some op →
      (∀ o, op.response = some (.done o) →
        exec .startOpportunity s = .next (s.contending
          ⟨⟨⟨false, rk, s.loader.number⟩, .done op.requester op.tag (BitVec.ofNat 3
            ([DoneOutcome.ok, .absent, .denied, .range, .parked, .full, .fault].idxOf o))⟩, .response k⟩)) ∧
      (∀ b n, op.response = some .data → op.buffer = some b → op.length = some n →
        exec .startOpportunity s = .next (s.contending
          ⟨⟨⟨false, rk, s.loader.number⟩,
            .data op.requester op.tag (BitVec.ofNat 7 n) (s.buffers[b].data.toList.take n)⟩, .response k⟩))) ∧
    (s.line.state = .idle → s.sendOrder = [] → ∀ i rest, s.requestQueue = i :: rest → ∀ e, s.entries[i] = e →
      (∀ b, e.kind = .put → e.buffer = some b →
        exec .startOpportunity s = .next (s.contending
          ⟨⟨⟨true, rk, s.loader.number⟩,
            .put e.target s.loader.config.incarnation ⟨BitVec.ofFin i, e.epoch⟩ e.window
              (if e.mailbox then 0 else BitVec.ofNat 24 e.remoteOffset) (BitVec.ofNat 7 e.length)
              (s.buffers[b].data.toList.take e.length)⟩, .request i⟩)) ∧
      (e.kind = .get →
        exec .startOpportunity s = .next (s.contending
          ⟨⟨⟨true, rk, s.loader.number⟩,
            .get e.target s.loader.config.incarnation ⟨BitVec.ofFin i, e.epoch⟩ e.window
              (if e.mailbox then 0 else BitVec.ofNat 24 e.remoteOffset) (BitVec.ofNat 7 e.length)⟩,
            .request i⟩)) ∧
      (e.kind = .signal →
        exec .startOpportunity s = .next (s.contending
          ⟨⟨⟨true, rk, s.loader.number⟩,
            .signal e.target s.loader.config.incarnation ⟨BitVec.ofFin i, e.epoch⟩ e.signalValue⟩,
            .request i⟩)))

/-- R135, R104, R134, R117: a round won puts a request entry in SENDING and off the queue; a round lost leaves the
owner where it was, but frees a RELEASING entry with its buffer. That a freed entry keeps its epoch alone and holds 0
elsewhere is the model's choice (log 20). -/
def Obligations.RoundsWonAndLost : Prop :=
  ∀ (s : State) (h : Hand), s.line.state = .contending → s.line.hand = some h →
    (∀ k, h.owner = .response k →
      exec .roundWon s = .next (s.setLine { s.line with state := .sending }) ∧
      exec .roundLost s = .next (s.setLine { s.line with state := .receiving, hand := none, rx := .receiving })) ∧
    (∀ i, h.owner = .request i → s.entries[i].state = .queued →
      exec .roundWon s = .next
        { s with
          line := { s.line with state := .sending }
          entries := s.entries.set i { s.entries[i] with state := .sending }
          requestQueue := s.requestQueue.filter fun k => k != i } ∧
      exec .roundLost s = .next (s.setLine { s.line with state := .receiving, hand := none, rx := .receiving })) ∧
    (∀ i, h.owner = .request i → s.entries[i].state = .releasing →
      exec .roundWon s = .next (s.setLine { s.line with state := .sending }) ∧
      exec .roundLost s = .next
        (((s.setLine { s.line with state := .receiving, hand := none, rx := .receiving }).returnBuffer
          s.entries[i].buffer).setEntry i (Entry.freeWith s.entries[i].epoch)))

/-- R121: what the line carries when two stations drive it in one bit time: undriven gives way to every driven condition,
a bit 1 to a bit 0 and both marks, and a bit 0 to an abort mark, whichever station drives which. R135, R136: of the claim
words of a round the lowest wins; the stations left at the end all drove it. -/
def Obligations.LowestClaimWins : Prop :=
  (∀ c : LineCond, LineCond.combine .undriven c = c ∧ (c ≠ .undriven → LineCond.combine .bit1 c = c) ∧
    LineCond.combine c c = c ∧ carried [c] = c) ∧
  LineCond.combine .bit0 .abortMark = .abortMark ∧
  (∀ c d : LineCond, LineCond.combine c d = LineCond.combine d c ∧ carried [c, d] = LineCond.combine c d) ∧
  (∀ bits : List Bool, bits ≠ [] →
    carried (bits.map LineCond.ofBit) = if bits.all id then LineCond.bit1 else .bit0) ∧
  (∀ claims : List (BitVec 11), claims ≠ [] →
    contend claims ≠ [] ∧ ∀ c, c ∈ contend claims ↔ c ∈ claims ∧ ∀ d ∈ claims, c.toNat ≤ d.toNat)

/-- R46, R137, R139: the end of a response frame sent without a clash. -/
def Obligations.ResponseSendResult : Prop :=
  ∀ (s : State) (slot : LineCond) (h : Hand) (k : Fin 8) (rest : List (Fin 8)) (op : Operation) (l : Line),
    s.line.state = .sending → s.line.hand = some h → h.owner = .response k → s.sendOrder = k :: rest → k ∉ rest →
    s.slots[k] = some op →
    l = { s.line with state := .idle, lastWinner := s.loader.number, clashes := 0, hand := none } →
    (slot ≠ .undriven ∨ 3 ≤ op.sendCount →
      exec (.sentFrameEnd slot) s = .next (((({ s with sendOrder := rest }).setLine l).returnBuffer
        op.buffer).setSlot k none)) ∧
    (slot = .undriven → op.sendCount ≤ 2 →
      exec (.sentFrameEnd slot) s = .next ((({ s with sendOrder := rest ++ [k] }).setLine l).setSlot k
        (some { op with sendCount := op.sendCount + 1 })))

/-- R105, R106, R115, R116, R117, R139: the end of a request frame sent without a clash: TAKEN; NOT_TAKEN within the
retry limit and at it; NOT_TAKEN for a HALTING owner; and a RELEASING entry. At the limit the first failure halts a
RUNNING, FINISHING or SIGNALLING owner with NO_ANSWER (R89, R91). That a freed entry keeps its epoch alone and holds 0
elsewhere is the model's choice (log 20). -/
def Obligations.RequestSendResult : Prop :=
  ∀ (s u : State) (slot : LineCond) (h : Hand) (i : Fin 16) (e : Entry),
    s.line.state = .sending → s.line.hand = some h → h.owner = .request i → s.entries[i] = e →
    u = s.setLine { s.line with state := .idle, lastWinner := s.loader.number, clashes := 0, hand := none } →
    (slot ≠ .undriven → e.state = .sending →
      exec (.sentFrameEnd slot) s = .next (u.setEntry i
        { e with state := .sent, timer := .responseDeadline (20 * s.loader.config.responseLimit) })) ∧
    (slot = .undriven → e.state = .sending → e.retry < s.loader.config.retryLimit →
      (∀ c, e.owner = some c → s.channels[c].state ≠ .halting) →
      exec (.sentFrameEnd slot) s = .next (({ u with requestQueue := s.requestQueue ++ [i] }).setEntry i
        { e with state := .queued, retry := e.retry + 1, timer := .stopped })) ∧
    (∀ c, slot = .undriven → e.state = .sending → e.retry = s.loader.config.retryLimit → e.owner = some c →
      s.channels[c].state = .running ∨ s.channels[c].state = .finishing ∨ s.channels[c].state = .signalling →
      exec (.sentFrameEnd slot) s = .next (u.firstFailure i c .noAnswer)) ∧
    (∀ c, slot = .undriven → e.state = .sending → e.owner = some c → s.channels[c].state = .halting →
      exec (.sentFrameEnd slot) s = .next (u.settledInHalt i c)) ∧
    (e.state = .releasing → exec (.sentFrameEnd slot) s = .next (u.entryFreed i))

/-- R140, R141, R47, R104: a clash returns the frame to the head of its queue, raises the count and leaves the station
driving its abort mark; the sixteenth silences the station. An entry of a HALTING owner and a RELEASING entry are freed
instead (R116, R117); the owner's part comes before LINE_SILENT (log 24), the abort mark lasts until the line's next
event (log 29), and a freed entry keeps its epoch alone (log 20), all the model's choice. R126, R129, R133, R139, R193:
what the station drives in each line state when it drives no abort mark: two bit times of start mark and its claim word,
the rest of its frame, the acceptance bit of a frame it has taken, and otherwise nothing. -/
def Obligations.ClashReturnsFrame : Prop :=
  (∀ (s u : State) (h : Hand) (silent : State → State), s.line.state = .sending → s.line.hand = some h →
    u = s.setLine { s.line with clashes := s.line.clashes + 1, hand := none, aborting := true
                                state := if 16 ≤ s.line.clashes + 1 then .silent else .idle } →
    silent = (fun v => if 16 ≤ s.line.clashes + 1 then v.post (.lineSilent (s.line.clashes + 1)) else v) →
    (∀ k, h.owner = .response k → exec .clash s = .next (silent u)) ∧
    (∀ i, h.owner = .request i → s.entries[i].state = .sending →
      (∀ c, s.entries[i].owner = some c → s.channels[c].state ≠ .halting) →
      exec .clash s = .next (silent
        (({ u with requestQueue := i :: s.requestQueue }).setEntry i { s.entries[i] with state := .queued }))) ∧
    (∀ i c, h.owner = .request i → s.entries[i].state = .sending → s.entries[i].owner = some c →
      s.channels[c].state = .halting → exec .clash s = .next (silent (u.settledInHalt i c))) ∧
    (∀ i, h.owner = .request i → s.entries[i].state = .releasing →
      exec .clash s = .next (silent (u.entryFreed i))) ∧
    (∀ t, exec .clash s = .next t → drives t = [.abortMark])) ∧
  (∀ s : State, s.line.aborting = false →
    (∀ h, s.line.state = .contending → s.line.hand = some h →
      drives s = [.startMark, .startMark] ++
        ([h.frame.claim.request] ++ msbFirst h.frame.claim.rank ++ msbFirst h.frame.claim.sender).map
          fun bit => if bit then LineCond.bit1 else .bit0) ∧
    (∀ h, s.line.state = .sending → s.line.hand = some h →
      drives s = (h.frame.wire.drop 11).map fun bit => if bit then LineCond.bit1 else .bit0) ∧
    (∀ sender, s.line.state = .receiving → s.line.rx = .good sender true → drives s = [.bit0]) ∧
    (s.line.state = .receiving → (∀ sender, s.line.rx ≠ .good sender true) → drives s = []) ∧
    (s.line.state ∈ [LineState.offline, .joining, .idle, .silent] → drives s = []))

/-- R107, R114: a response timeout within the retry limit and a hold's end put the entry at the tail of the Request
Queue; a timeout at the limit fails the entry with NO_ANSWER (R89, R115), and one of a HALTING owner's entry frees it
(R90, R116). That a freed entry keeps its epoch alone and holds 0 elsewhere is the model's choice (log 20). -/
def Obligations.TimerExpiriesRequeue : Prop :=
  ∀ (s : State) (i : Fin 16) (us : Nat),
    (s.entries[i].state = .sent → s.entries[i].timer = .responseDeadline us →
      (s.entries[i].retry < s.loader.config.retryLimit →
        (∀ c, s.entries[i].owner = some c → s.channels[c].state ≠ .halting) →
        exec (.responseTimerExpiry i) s = .next (({ s with requestQueue := s.requestQueue ++ [i] }).setEntry i
          { s.entries[i] with state := .queued, retry := s.entries[i].retry + 1, timer := .stopped })) ∧
      (∀ c, s.entries[i].retry = s.loader.config.retryLimit → s.entries[i].owner = some c →
        s.channels[c].state = .running ∨ s.channels[c].state = .finishing ∨ s.channels[c].state = .signalling →
        exec (.responseTimerExpiry i) s = .next (s.firstFailure i c .noAnswer)) ∧
      (∀ c, s.entries[i].owner = some c → s.channels[c].state = .halting →
        exec (.responseTimerExpiry i) s = .next (s.settledInHalt i c))) ∧
    (s.entries[i].state = .holding → s.entries[i].timer = .holdEnd us →
      exec (.holdTimerExpiry i) s = .next (({ s with requestQueue := s.requestQueue ++ [i] }).setEntry i
        { s.entries[i] with state := .queued, timer := .stopped }))

/-- R143: LINE_RESTART in SILENT, and in any other line state. -/
def Obligations.LineRestartRejoins : Prop :=
  ∀ s : State, Ready s →
    (s.line.state = .silent →
      exec .lineRestart s = .next ((s.answered 32 .done).setLine
        { s.line with state := .joining, lastWinner := 31, clashes := 0, joinTimer := some 0 })) ∧
    (s.line.state ≠ .silent → exec .lineRestart s = .next (s.answered 32 .wrongState))

/-- R127, R130, R131: a driven condition seen in IDLE begins a receipt; in JOINING it sets the joining timer back; in
JOINING and SILENT a receipt begins at any driven condition of a line in step, and at a start mark alone of one out of
step (the model's reading, log 13, log 14); in any state in which another frame is under way, and in OFFLINE, it changes
nothing. R130, R132, R137, R142: the end of a received frame in RECEIVING, JOINING and SILENT, and joining by QUIET. R125:
the bit time that is the end of a frame, by how the frame was received; a FRAME_END at another bit time, or for another
frame than the receipt is of, does not arise and changes nothing (the model's choice, log 1, log 33). Each of these events is after the station's own abort mark (log 29), and that the joining timer is stopped at the end of joining
is the model's choice (log 15). -/
def Obligations.ReceiptsBeginAndEnd : Prop :=
  (∀ (s : State) (seen : LineCond), seen ≠ .undriven →
      (s.line.state = .idle →
        exec (.startMark seen) s =
          .next (s.setLine { s.line with state := .receiving, rx := .receiving, aborting := false })) ∧
      (∀ rx, rx = (if s.line.rx = .nothing ∨ s.line.rx = .outOfStep ∧ seen = .startMark then .receiving
          else s.line.rx) →
        (s.line.state = .joining → exec (.startMark seen) s =
          .next (s.setLine { s.line with joinTimer := some 0, rx := rx, aborting := false })) ∧
        (s.line.state = .silent →
          exec (.startMark seen) s = .next (s.setLine { s.line with rx := rx, aborting := false }))) ∧
      (s.line.state = .offline ∨ s.line.state = .contending ∨ s.line.state = .sending ∨ s.line.state = .receiving →
        exec (.startMark seen) s = .next s)) ∧
  (∀ (s : State) (conds : List LineCond), endsFrame conds = true →
      (∀ sender accept f, s.line.rx = .good sender accept → receivedFrame conds = some f → f.claim.sender = sender →
        (s.line.state = .receiving → exec (.frameEnd conds) s =
          .next (s.setLine { s.line with state := .idle, lastWinner := sender, rx := .nothing })) ∧
        (s.line.state = .joining → exec (.frameEnd conds) s = .next ((s.setLine
          { s.line with state := .idle, lastWinner := sender, joinTimer := none, rx := .nothing }).post
            (.lineJoined .frame sender))) ∧
        (s.line.state = .silent → exec (.frameEnd conds) s =
          .next (s.setLine { s.line with lastWinner := sender, rx := .nothing })) ∧
        (s.line.state = .idle → exec (.frameEnd conds) s = .next (s.setLine { s.line with aborting := false }))) ∧
      (s.line.rx = .receiving → receivedFrame conds = none →
        (s.line.state = .receiving →
          exec (.frameEnd conds) s = .next (s.setLine { s.line with state := .idle, rx := .nothing })) ∧
        (s.line.state = .joining ∨ s.line.state = .silent →
          exec (.frameEnd conds) s = .next (s.setLine { s.line with rx := .nothing })) ∧
        (s.line.state = .idle → exec (.frameEnd conds) s = .next (s.setLine { s.line with aborting := false }))) ∧
      (s.line.state = .idle ∨ s.line.state = .joining ∨ s.line.state = .silent →
        s.line.rx = .nothing ∨ s.line.rx = .outOfStep →
        exec (.frameEnd conds) s = .next (s.setLine { s.line with aborting := false }))) ∧
  (∀ (s : State) (conds : List LineCond),
      endsFrame conds = false ∨ s.line.state = .offline ∨ s.line.state = .contending ∨ s.line.state = .sending ∨
        (s.line.rx = .receiving ∧ receivedFrame conds ≠ none) ∨
        (∃ sender accept, s.line.rx = .good sender accept ∧
          ∀ f, receivedFrame conds = some f → f.claim.sender ≠ sender) →
      exec (.frameEnd conds) s = .next s) ∧
  (∀ s : State, s.line.state = .joining → s.line.rx = .nothing ∨ s.line.rx = .outOfStep →
      exec .joiningTimerExpiry s = .next ((s.setLine
        { s.line with state := .idle, joinTimer := none, rx := .nothing, aborting := false }).post
          (.lineJoined .quiet s.line.lastWinner))) ∧
  (∀ (conds : List LineCond) (quiet : Prop),
      quiet = ((∃ before, conds = before ++ [.undriven, .undriven, .undriven]) ∧
        ∀ before after, after ≠ [] → conds ≠ before ++ [.undriven, .undriven, .undriven] ++ after) →
      (frameExtent conds = none → (endsFrame conds = true ↔ quiet)) ∧
      (∀ (n : Nat) (reached : Prop), frameExtent conds = some n →
        reached = (n < conds.length ∧ conds[n]? ≠ some .abortMark ∧
          ∀ k, k < n → conds[k]? ≠ some .undriven ∧ conds[k]? ≠ some .abortMark) →
        (reached → (endsFrame conds = true ↔ conds.length = n + 5)) ∧
        (¬ reached → (endsFrame conds = true ↔ quiet)))) ∧
  (∀ (conds : List LineCond) (f : Frame), receivedFrame conds = some f ↔
      ∃ n, frameExtent conds = some n ∧ receive (conds.take (n + 1)) = some f) ∧
  (∀ (f : Frame) (after : LineCond) (slot : LineCond) (mark : List LineCond) (conds : List LineCond),
      receive (f.conds after) = some f → mark.length = 3 → conds = f.conds after ++ slot :: mark →
      endsFrame conds = true ∧ receivedFrame conds = some f ∧ f.bitTimes = 2 + conds.length)

/-! ### Receiving: requests (R25 to R37, R51, R124) -/

/-- R124, R137: a good frame that is for another station, or that the line state does not let the station take, goes
nowhere; a bad one changes nothing. R25, R26, R193: a good frame for this station that is not well formed, a GET of
length 0 or 65 to 127 or a DONE with outcome code 7, is not taken either and still leaves its sender for the last winner.
R26, R109: a well formed response addressed to a RUNNING, RECEIVING station is taken; one that matches no entry, by its
epoch, its entry's state or its form (a DONE OK for a GET, a DATA for a PUT or SIGNAL, a DATA of another length), leaves
nothing else. That a CRC with no receipt under way changes nothing is the model's choice (log 1). -/
def Obligations.FramesThatLeaveNoTrace : Prop :=
  (∀ (s : State) (conds : List LineCond) (f : Frame),
      (s.line.rx = .receiving → receive conds = some f →
        f.body.dest ≠ s.loader.number ∨ s.loader.station ≠ .running ∨ s.line.state ≠ .receiving →
        exec (.frameCrcReceived conds) s = .next (s.setLine { s.line with rx := .good f.claim.sender false })) ∧
      (Receives s conds f → f.body.dest = s.loader.number →
        (∃ inc tag w off len, f.body = .get s.loader.number inc tag w off len ∧ (len = 0 ∨ 64 < len.toNat)) ∨
          (∃ tag, f.body = .done s.loader.number tag 7) →
        exec (.frameCrcReceived conds) s = .next (s.setLine { s.line with rx := .good f.claim.sender false })) ∧
      (receive conds = none → exec (.frameCrcReceived conds) s = .next s) ∧
      (s.line.rx ≠ .receiving → exec (.frameCrcReceived conds) s = .next s)) ∧
  (∀ (s : State) (conds : List LineCond) (f : Frame) (tag : Tag) (i : Fin 16) (unmatched : Prop),
      Receives s conds f → i.val = tag.entry.toNat →
      unmatched = (s.entries[i].epoch ≠ tag.epoch ∨
        (s.entries[i].state ≠ .queued ∧ s.entries[i].state ≠ .sent ∧ s.entries[i].state ≠ .holding)) →
      (∀ o, f.body = .done s.loader.number tag o → o ≠ 7 → unmatched ∨ s.entries[i].kind = .get ∧ o = 0 →
        exec (.frameCrcReceived conds) s = .next (s.setLine { s.line with rx := .good f.claim.sender true })) ∧
      (∀ len pay, f.body = .data s.loader.number tag len pay → 1 ≤ len.toNat → len.toNat ≤ 64 →
        pay.length = len.toNat → unmatched ∨ s.entries[i].kind ≠ .get ∨ s.entries[i].length ≠ len.toNat →
        exec (.frameCrcReceived conds) s = .next (s.setLine { s.line with rx := .good f.claim.sender true }))) ∧
  (∀ body : FrameBody, body.dest = match body with
    | .put d .. => d
    | .get d .. => d
    | .signal d .. => d
    | .data d .. => d
    | .done d .. => d)

/-- R18, R25, R30, R35: a PUT that passes every check against a MEMORY window is executed in the event that takes it. -/
def Obligations.PutExecutedOnMemoryWindow : Prop :=
  ∀ (s : State) (conds : List LineCond) (f : Frame) (inc : Byte) (tag : Tag) (i : Fin 32) (off : BitVec 24)
    (len : BitVec 7) (pay : List Byte) (k : Fin 8) (n : Fin 512) (w : WindowEntry),
    Receives s conds f → PoolInv s → f.body = .put s.loader.number inc tag (BitVec.ofFin i) off len pay →
    f.sendable = true → n = replayIndex f.claim.sender tag.entry → s.windows[i] = w →
    s.replay[n].state ≠ .pending →
    (s.replay[n].state = .settled → s.replay[n].incarnation ≠ inc ∨ s.replay[n].epoch ≠ tag.epoch) →
    freeSlot s = some k → w.state = .opened → w.kind = .memory →
    w.writeGrants.getLsbD f.claim.sender.toNat = true → off.toNat + len.toNat ≤ w.limit + 1 →
    ∃ (t : State) (b : Fin 24), exec (.frameCrcReceived conds) s = .next t ∧
      { t with line := s.line, windows := s.windows, slots := s.slots, replay := s.replay, buffers := s.buffers
               engine := s.engine } = s ∧
      t.line = { s.line with rx := .good f.claim.sender true } ∧
      t.windows = s.windows.set i { w with inUse := w.inUse + 1 } ∧
      t.slots = s.slots.set k (some
        { phase := .executing, requester := f.claim.sender, incarnation := inc, tag := tag, kind := .put
          window := some i, localAddress := some (w.base + off.toNat), length := some len.toNat
          mailboxSlot := none, mailboxSequence := none, buffer := some b, response := none, sendCount := 0 }) ∧
      t.replay = s.replay.set n ⟨.pending, inc, tag.epoch, none⟩ ∧
      s.buffers[b].owner = none ∧ t.buffers[b].owner = some (.operation k) ∧
      t.buffers[b].data.toList.take len.toNat = pay ∧
      (∀ d : Fin 24, d ≠ b → t.buffers[d] = s.buffers[d]) ∧
      ResponderQueued s t
        ⟨.write, .responder, w.base + off.toNat, len.toNat, some b, .operation k, .listed, 0, none, false⟩

/-- R18, R25, R30, R36: a GET that passes every check is executed in the event that takes it; the Replay Table is not
touched. -/
def Obligations.GetExecuted : Prop :=
  ∀ (s : State) (conds : List LineCond) (f : Frame) (inc : Byte) (tag : Tag) (i : Fin 32) (off : BitVec 24)
    (len : BitVec 7) (k : Fin 8) (w : WindowEntry),
    Receives s conds f → PoolInv s → f.body = .get s.loader.number inc tag (BitVec.ofFin i) off len →
    f.sendable = true → s.windows[i] = w → freeSlot s = some k → w.state = .opened → w.kind = .memory →
    w.readGrants.getLsbD f.claim.sender.toNat = true → off.toNat + len.toNat ≤ w.limit + 1 →
    ∃ (t : State) (b : Fin 24), exec (.frameCrcReceived conds) s = .next t ∧
      { t with line := s.line, windows := s.windows, slots := s.slots, buffers := s.buffers
               engine := s.engine } = s ∧
      t.line = { s.line with rx := .good f.claim.sender true } ∧
      t.windows = s.windows.set i { w with inUse := w.inUse + 1 } ∧
      t.slots = s.slots.set k (some
        { phase := .executing, requester := f.claim.sender, incarnation := inc, tag := tag, kind := .get
          window := some i, localAddress := some (w.base + off.toNat), length := some len.toNat
          mailboxSlot := none, mailboxSequence := none, buffer := some b, response := none, sendCount := 0 }) ∧
      s.buffers[b].owner = none ∧
      t.buffers = s.buffers.set b { s.buffers[b] with owner := some (.operation k) } ∧
      ResponderQueued s t
        ⟨.read, .responder, w.base + off.toNat, len.toNat, some b, .operation k, .listed, 0, none, false⟩

/-- R51, R35, R52: a PUT admitted against a MAILBOX window reserves the first slot after those committed or reserved,
fixes its sequence number, and queues a slot write of 72 bytes. -/
def Obligations.MailboxPutReservesSlot : Prop :=
  ∀ (s : State) (conds : List LineCond) (f : Frame) (inc : Byte) (tag : Tag) (i : Fin 32)
    (len : BitVec 7) (pay : List Byte) (k : Fin 8) (n : Fin 512) (w : WindowEntry) (slot : Nat),
    Receives s conds f → PoolInv s → f.body = .put s.loader.number inc tag (BitVec.ofFin i) 0 len pay →
    f.sendable = true → n = replayIndex f.claim.sender tag.entry → s.windows[i] = w →
    s.replay[n].state ≠ .pending →
    (s.replay[n].state = .settled → s.replay[n].incarnation ≠ inc ∨ s.replay[n].epoch ≠ tag.epoch) →
    freeSlot s = some k → w.state = .opened → w.kind = .mailbox →
    w.writeGrants.getLsbD f.claim.sender.toNat = true → w.committed + w.reserved < w.slotCount →
    slot = (w.head + w.committed + w.reserved) % w.slotCount →
    ∃ (t : State) (b : Fin 24), exec (.frameCrcReceived conds) s = .next t ∧
      { t with line := s.line, windows := s.windows, slots := s.slots, replay := s.replay, buffers := s.buffers
               engine := s.engine } = s ∧
      t.line = { s.line with rx := .good f.claim.sender true } ∧
      t.windows = s.windows.set i { w with inUse := w.inUse + 1, reserved := w.reserved + 1 } ∧
      t.slots = s.slots.set k (some
        { phase := .executing, requester := f.claim.sender, incarnation := inc, tag := tag, kind := .put
          window := some i, localAddress := some (w.base + 72 * slot), length := some len.toNat
          mailboxSlot := some slot, mailboxSequence := some (w.sequence + BitVec.ofNat 16 w.reserved + 1)
          buffer := some b, response := none, sendCount := 0 }) ∧
      t.replay = s.replay.set n ⟨.pending, inc, tag.epoch, none⟩ ∧
      s.buffers[b].owner = none ∧ t.buffers[b].owner = some (.operation k) ∧
      t.buffers[b].data.toList.take len.toNat = pay ∧
      (∀ d : Fin 24, d ≠ b → t.buffers[d] = s.buffers[d]) ∧
      ResponderQueued s t
        ⟨.write, .responder, w.base + 72 * slot, 72, some b, .operation k, .listed, 0, some slot, false⟩

/-- R33, R37: a SIGNAL with a reserved slot, past the replay lookup, is refused DENIED, refused FULL, or executed
wholly in the event. -/
def Obligations.SignalServed : Prop :=
  ∀ (s : State) (conds : List LineCond) (f : Frame) (inc : Byte) (tag : Tag) (value : Word) (k : Fin 8)
    (n : Fin 512) (l : Line) (answer : DoneOutcome → Operation),
    Receives s conds f → f.body = .signal s.loader.number inc tag value →
    n = replayIndex f.claim.sender tag.entry → s.replay[n].state ≠ .pending →
    (s.replay[n].state = .settled → s.replay[n].incarnation ≠ inc ∨ s.replay[n].epoch ≠ tag.epoch) →
    freeSlot s = some k → l = { s.line with rx := .good f.claim.sender true } →
    answer = (fun o =>
      { phase := .answering, requester := f.claim.sender, incarnation := inc, tag := tag, kind := .signal
        window := none, localAddress := none, length := none, mailboxSlot := none, mailboxSequence := none
        buffer := none, response := some (.done o), sendCount := 0 }) →
    (s.loader.config.signalGrants.getLsbD f.claim.sender.toNat = false →
      exec (.frameCrcReceived conds) s = .next
        ((({ s with sendOrder := s.sendOrder ++ [k] }).setLine l).setSlot k (some (answer .denied)))) ∧
    (s.loader.config.signalGrants.getLsbD f.claim.sender.toNat = true → 30 < s.notices.records.length →
      exec (.frameCrcReceived conds) s = .next
        ((({ s with sendOrder := s.sendOrder ++ [k] }).setLine l).setSlot k (some (answer .full)))) ∧
    (s.loader.config.signalGrants.getLsbD f.claim.sender.toNat = true → s.notices.records.length ≤ 30 →
      exec (.frameCrcReceived conds) s = .next
        ((((({ s with sendOrder := s.sendOrder ++ [k] }).setLine l).setSlot k (some (answer .ok))).setReplay n
          ⟨.settled, inc, tag.epoch, some .ok⟩).post (.remoteSignal f.claim.sender value)))

/-- R24: a slot is found free exactly when some slot holds no operation, and none when all eight are reserved (which free
one is taken is the model's choice, log 21). R25: a well formed request addressed to a RUNNING, RECEIVING station goes to
the Request Service Unit. R29, R32: what the replay record of a PUT or SIGNAL decides before anything is reserved:
absorbed, not taken, answered from the record, not taken for want of a slot, or served afresh. R30, R148: a taken PUT that
is not absorbed has its payload placed in a free buffer, which it goes on holding or gives back in the same event with the
bytes left in it. R41: each pair of a requester station and an entry index has a record of its own. R23, R25: the request that a well formed frame carries, and the operation
filled from it. -/
def Obligations.ReplayRecordDecides : Prop :=
  (∀ (s : State) (conds : List LineCond) (f : Frame) (r : Request), Receives s conds f →
    f.body.dest = s.loader.number → frameRequest f = some r →
    exec (.frameCrcReceived conds) s = .next
      ((s.takeRequest r).1.setLine { s.line with rx := .good f.claim.sender (s.takeRequest r).2 })) ∧
  (∀ (s : State) (r : Request) (rec : ReplayRecord), r.kind ≠ .get →
    s.replay[replayIndex r.sender r.tag.entry] = rec →
    (rec.state = .pending → rec.incarnation = r.incarnation → rec.epoch = r.tag.epoch →
      s.takeRequest r = (s, true)) ∧
    (rec.state = .pending → rec.incarnation ≠ r.incarnation ∨ rec.epoch ≠ r.tag.epoch →
      s.takeRequest r = (s, false)) ∧
    (∀ k o, rec.state = .settled → rec.incarnation = r.incarnation → rec.epoch = r.tag.epoch →
      rec.outcome = some .ok ∧ o = DoneOutcome.ok ∨ rec.outcome = some .fault ∧ o = DoneOutcome.fault →
      freeSlot s = some k →
      s.takeRequest r =
        (({ s.placePayload r with sendOrder := s.sendOrder ++ [k] }).setSlot k (some
          { r.operation none with phase := .answering, response := some (.done o) }), true)) ∧
    (rec.state ≠ .pending → freeSlot s = none → s.takeRequest r = (s, false)) ∧
    (∀ k, rec.state = .empty ∨
        rec.state = .settled ∧ (rec.incarnation ≠ r.incarnation ∨ rec.epoch ≠ r.tag.epoch) →
      freeSlot s = some k → s.takeRequest r = ((s.placePayload r).serveFresh k r, true))) ∧
  (∀ (s : State) (r : Request), r.kind = .get →
    (freeSlot s = none → s.takeRequest r = (s, false)) ∧
    (∀ k, freeSlot s = some k → s.takeRequest r = ((s.placePayload r).serveFresh k r, true))) ∧
  (∀ (s : State) (r : Request), (r.kind ≠ .put → s.placePayload r = s) ∧
    (∀ b, r.kind = .put → freeBuffer s = some b → r.payload.length ≤ 64 → s.buffers[b].owner = none ∧
      ∃ data : Vector Byte 64, s.placePayload r = s.setBuffer b { s.buffers[b] with data := data } ∧
        data.toList = r.payload ++ s.buffers[b].data.toList.drop r.payload.length)) ∧
  (∀ (s : State) (k : Fin 8), PoolInv s → freeSlot s = some k → freeBuffer s ≠ none) ∧
  (∀ s : State, (∀ k, freeSlot s = some k → s.slots[k] = none) ∧
    (freeSlot s = none ↔ ∀ k : Fin 8, s.slots[k] ≠ none)) ∧
  (∀ (sender sender' : Station) (entry entry' : BitVec 4),
    replayIndex sender entry = replayIndex sender' entry' → sender = sender' ∧ entry = entry') ∧
  (∀ f : Frame, frameRequest f = match f.body with
    | .put _ inc tag w off len pay =>
      if 1 ≤ len.toNat ∧ len.toNat ≤ 64 ∧ pay.length = len.toNat then
        some { sender := f.claim.sender, kind := .put, incarnation := inc, tag := tag, window := w.toFin
               offset := off.toNat, length := len.toNat, payload := pay, value := 0 }
      else none
    | .get _ inc tag w off len =>
      if 1 ≤ len.toNat ∧ len.toNat ≤ 64 then
        some { sender := f.claim.sender, kind := .get, incarnation := inc, tag := tag, window := w.toFin
               offset := off.toNat, length := len.toNat, payload := [], value := 0 }
      else none
    | .signal _ inc tag value =>
      some { sender := f.claim.sender, kind := .signal, incarnation := inc, tag := tag, window := 0, offset := 0
             length := 0, payload := [], value := value }
    | _ => none) ∧
  (∀ r : Request, r.operation none =
    { phase := .executing, requester := r.sender, incarnation := r.incarnation, tag := r.tag, kind := r.kind
      window := if r.kind = .signal then none else some r.window, localAddress := none
      length := if r.kind = .signal then none else some r.length, mailboxSlot := none, mailboxSequence := none
      buffer := none, response := none, sendCount := 0 })

/-- R17, R34: a PUT or GET that the Window Table refuses, its payload placed as ReplayRecordDecides says, is answered by a
DONE at the tail of the send order and leaves nothing else, but for the first PARKED refusal of a park, which sets the
touched flag and posts WINDOW_TOUCHED. -/
def Obligations.RefusalAnswered : Prop :=
  ∀ (s : State) (k : Fin 8) (r : Request) (o : DoneOutcome) (t : State), r.kind ≠ .signal →
    windowRefusal s.windows[r.window] (decide (r.kind = .put)) r.sender r.offset r.length = some o →
    t = ({ s with sendOrder := s.sendOrder ++ [k] }).setSlot k (some
      { r.operation none with phase := .answering, response := some (.done o) }) →
    (o ≠ .parked → s.serveFresh k r = t) ∧
    (o = .parked → s.windows[r.window].touched = true → s.serveFresh k r = t) ∧
    (o = .parked → s.windows[r.window].touched = false →
      s.serveFresh k r = (t.setWindow r.window { s.windows[r.window] with touched := true }).post
        (.windowTouched r.window r.sender r.offset))

/-! ### Receiving: answers (R26, R109 to R113) -/

/-- R109, R110, R83 to R86, R90: a matching DONE OK to a SENT, QUEUED or HOLDING PUT or SIGNAL takes the entry off the
Request Queue and frees it with its buffer, and its report lowers the owner's live entries by 1; the last one of a pass
ends it or calls for its signal, and the last one of a halt faults the channel. That a freed entry keeps its epoch alone
and holds 0 elsewhere is the model's choice (log 20). -/
def Obligations.DoneOkCompletesEntry : Prop :=
  ∀ (s : State) (conds : List LineCond) (f : Frame) (tag : Tag) (i : Fin 16) (c : Fin 8) (r : Channel) (u v : State),
    Receives s conds f → f.body = .done s.loader.number tag 0 → i.val = tag.entry.toNat →
    s.entries[i].epoch = tag.epoch →
    s.entries[i].state = .sent ∨ s.entries[i].state = .queued ∨ s.entries[i].state = .holding →
    s.entries[i].kind ≠ .get → s.entries[i].owner = some c → s.channels[c] = r →
    u = ({ s with requestQueue := s.requestQueue.filter fun k => k != i }).setLine
      { s.line with rx := .good f.claim.sender true } →
    v = u.entryFreed i →
    (r.state = .running ∨ r.state = .finishing ∧ 1 < r.live →
      exec (.frameCrcReceived conds) s = .next (v.setChannel c { r with live := r.live - 1 })) ∧
    (r.state = .finishing → r.live = 1 → r.signal.isSome = true →
      exec (.frameCrcReceived conds) s = .next (v.setChannel c { r with live := 0, state := .signalling })) ∧
    (r.live = 1 → r.state = .signalling ∨ r.state = .finishing ∧ r.signal = none →
      exec (.frameCrcReceived conds) s = .next ((v.setChannel c (passEnded r)).post (.channelEnd c r.reload))) ∧
    (r.state = .halting → exec (.frameCrcReceived conds) s = .next (u.settledInHalt i c))

/-- R111: a matching DATA puts the payload in the landing buffer and queues the landing write. -/
def Obligations.DataLands : Prop :=
  ∀ (s : State) (conds : List LineCond) (f : Frame) (tag : Tag) (len : BitVec 7) (pay : List Byte) (i : Fin 16)
    (b : Fin 24) (e : Entry),
    Receives s conds f → f.body = .data s.loader.number tag len pay → f.sendable = true → s.entries[i] = e →
    i.val = tag.entry.toNat → e.epoch = tag.epoch → e.state = .sent ∨ e.state = .queued ∨ e.state = .holding →
    e.kind = .get → e.length = len.toNat → e.buffer = some b →
    ∃ t, exec (.frameCrcReceived conds) s = .next t ∧
      { t with line := s.line, entries := s.entries, requestQueue := s.requestQueue, buffers := s.buffers
               engine := s.engine } = s ∧
      t.line = { s.line with rx := .good f.claim.sender true } ∧
      t.entries = s.entries.set i { e with state := .landing, timer := .stopped } ∧
      t.requestQueue = s.requestQueue.filter (fun k => k != i) ∧
      t.buffers[b].owner = s.buffers[b].owner ∧ t.buffers[b].data.toList.take len.toNat = pay ∧
      (∀ d : Fin 24, d ≠ b → t.buffers[d] = s.buffers[d]) ∧
      RequesterQueued s t
        ⟨.write, .requester, e.localAddress, e.length, some b, .entry i, .listed, 0, none, false⟩

/-- R113: a hold outcome below the hold limit holds the entry for one hold interval, and at the limit fails it with
HELD_TOO_LONG. R88, R115: the outcomes ABSENT, DENIED, RANGE and FAULT fail it with their codes; the first failure of a
pass halts a RUNNING, FINISHING or SIGNALLING owner (R89, R91). R90, R116: under a HALTING owner every one of them frees
the entry. That a freed entry keeps its epoch alone and holds 0 elsewhere is the model's choice (log 20). -/
def Obligations.HoldOutcomeHolds : Prop :=
  ∀ (s u : State) (conds : List LineCond) (f : Frame) (tag : Tag) (o : BitVec 3) (i : Fin 16) (e : Entry),
    Receives s conds f → f.body = .done s.loader.number tag o → s.entries[i] = e →
    i.val = tag.entry.toNat → e.epoch = tag.epoch → e.state = .sent ∨ e.state = .queued ∨ e.state = .holding →
    u = ({ s with requestQueue := s.requestQueue.filter fun k => k != i }).setLine
      { s.line with rx := .good f.claim.sender true } →
    (o = 4 ∨ o = 5 → e.hold < s.loader.config.holdLimit →
      (∀ c, e.owner = some c → s.channels[c].state ≠ .halting) →
      exec (.frameCrcReceived conds) s = .next (u.setEntry i
        { e with state := .holding, hold := e.hold + 1, retry := 0
                 timer := .holdEnd (10 * s.loader.config.holdInterval) })) ∧
    (∀ c code, e.owner = some c →
      s.channels[c].state = .running ∨ s.channels[c].state = .finishing ∨ s.channels[c].state = .signalling →
      (o = 4 ∨ o = 5) ∧ e.hold = s.loader.config.holdLimit ∧ code = .heldTooLong ∨
        o = 1 ∧ code = .absent ∨ o = 2 ∧ code = .denied ∨ o = 3 ∧ code = .range ∨ o = 6 ∧ code = .remoteFault →
      exec (.frameCrcReceived conds) s = .next (u.firstFailure i c code)) ∧
    (∀ c, e.owner = some c → s.channels[c].state = .halting → o ≠ 0 → o ≠ 7 →
      exec (.frameCrcReceived conds) s = .next (u.settledInHalt i c))

/-! ### The engine, local memory and the loader (R38, R39, R52, R153 to R160, R183 to R189) -/

/-- R153, R155: the grant moves a REQUESTING job to MOVING; its loss leaves the cycle in progress the last one, and a
grant regained before that cycle has ended lets the job go on (the model's choice of when the wait begins, log 16; R162);
with no job nothing but the level changes. R153, R162: an LBERR outside any cycle changes nothing, with no job, with one
that is not MOVING, and after a job's last cycle has completed, whatever job is MOVING by then (that the command carries
whether it falls in a cycle is log 31). -/
def Obligations.GrantMovesJob : Prop :=
  ∀ (s : State) (p : Bool → Pins), p = (fun b => { s.pins with lbgnt := b }) →
    (s.engine.job = none →
      exec .lbgntAsserted s = .next { s with pins := p true } ∧
      exec .lbgntDeasserted s = .next { s with pins := p false }) ∧
    (∀ j, s.engine.job = some j → j.phase = .requesting → j.lastCycle = false →
      exec .lbgntAsserted s = .next
        { s with pins := p true, engine := { s.engine with job := some { j with phase := .moving }, timer := none } } ∧
      exec .lbgntDeasserted s = .next { s with pins := p false }) ∧
    (∀ j, s.engine.job = some j → j.phase = .moving →
      exec .lbgntDeasserted s = .next
        { s with pins := p false, engine := { s.engine with job := some { j with lastCycle := true } } } ∧
      exec .lbgntAsserted s = .next
        { s with pins := p true, engine := { s.engine with job := some { j with lastCycle := false }, timer := none } }) ∧
    (∀ inCycle, s.engine.job = none ∨ (∃ j, s.engine.job = some j ∧ j.phase ≠ .moving) ∨ inCycle = false →
      exec (.lberr inCycle) s = .next s)

/-- R154, R155, R163: a completed cycle that does not end its job moves its own bytes and no others, after the stores
of other bus masters (log 5); when the grant went during it, the job asks again. A cycle of the start read
fills the loader's own holding (R160). R153, R160: a responder or requester job waits for the grant as long as the start
block says, the start read 255 µs. Bytes are stored one after another, the last one at an address standing. A cycle or a
store outside local memory faults; with no cycle in progress nothing
happens (log 1, log 6). -/
def Obligations.BusCycleMovesBytes : Prop :=
  (∀ (s : State) (stores : List Host.Cell) (j : Job) (m : Memory) (e : Engine), s.engine.job = some j →
      j.phase = .moving → Memory.wf s.mem = true → (∀ c ∈ stores, c.1 < 16777216) →
      (∀ a ∈ j.cycleAddresses, a < 16777216) → j.moved + j.cycleLength < j.length →
      m = Memory.writeCells s.mem stores →
      e = (if j.lastCycle then
            { s.engine with
              job := some { j with moved := j.moved + j.cycleLength, phase := .requesting, lastCycle := false }
              timer := some (grantLimit s j) }
          else { s.engine with job := some { j with moved := j.moved + j.cycleLength } }) →
      ∃ t, exec (.busCycleComplete stores) s = .next t ∧
        { t with mem := s.mem, engine := s.engine, buffers := s.buffers, loader := s.loader } = s ∧ t.engine = e ∧
        (j.kind = .write → t.buffers = s.buffers ∧ t.loader = s.loader ∧
          (∀ k ∈ j.cyclePositions, Memory.read t.mem (j.byteAddress k) = jobByte s j k) ∧
          ∀ a, a ∉ j.cycleAddresses → Memory.read t.mem a = Memory.read m a) ∧
        (∀ b, j.kind = .read → j.buffer = some b → t.mem = m ∧ t.loader = s.loader ∧
          t.buffers[b].owner = s.buffers[b].owner ∧ (∀ d : Fin 24, d ≠ b → t.buffers[d] = s.buffers[d]) ∧
          ∀ k : Fin 64, t.buffers[b].data[k] =
            if k.val ∈ j.cyclePositions then Memory.read m (j.byteAddress k.val) else s.buffers[b].data[k]) ∧
        (j.kind = .read → j.buffer = none → t.mem = m ∧ t.buffers = s.buffers ∧
          t.loader = { s.loader with holding := t.loader.holding } ∧
          ∀ k : Fin 44, t.loader.holding[k] =
            if k.val ∈ j.cyclePositions then Memory.read m (j.byteAddress k.val) else s.loader.holding[k])) ∧
  (∀ (s : State) (stores : List Host.Cell),
      (∀ j, s.engine.job = some j → j.phase = .moving →
        (∃ c ∈ stores, 16777216 ≤ c.1) ∨ (∃ a ∈ j.cycleAddresses, 16777216 ≤ a) →
        exec (.busCycleComplete stores) s = .fault .outsideLocalMemory) ∧
      (s.engine.job = none → exec (.busCycleComplete stores) s = .next s) ∧
      (∀ j, s.engine.job = some j → j.phase ≠ .moving → exec (.busCycleComplete stores) s = .next s)) ∧
  (∀ (s : State) (j : Job), grantLimit s j = match j.cls with
    | .start => 255
    | .responder => s.loader.config.grantWait
    | .requester => s.loader.config.grantWait) ∧
  (∀ (m : Memory) (stores : List Host.Cell) (c : Host.Cell) (a : Nat), Memory.wf m = true →
    (∀ d ∈ stores, d.1 < 16777216) → Memory.writeCells m [] = m ∧
    Memory.read (Memory.writeCells m (stores ++ [c])) a =
      if a = c.1 then c.2 else Memory.read (Memory.writeCells m stores) a)

/-- R154: a cycle moves a run of the job's bytes from its next one on, all in one aligned word; a job at ascending addresses
goes to the end of that word or of the job, byte k to or from its address + k, and a slot write goes a whole word at a
time. R35, R111, R154: what a write stores is byte k of its buffer, and what a read places in position k is the byte of
memory at its address. R52, R154, R195: a mailbox slot write moves its 64 data bytes, payload then zeros, and then the
header, whose last two bytes are the sequence number. -/
def Obligations.CyclesAndSlotWriteOrder : Prop :=
  (∀ j : Job,
      (∀ k, k ∈ j.cyclePositions ↔ j.moved ≤ k ∧ k < j.moved + j.cycleLength) ∧
      j.cycleAddresses = j.cyclePositions.map j.byteAddress ∧
      (∀ k ∈ j.cyclePositions, j.byteAddress k / 4 = j.byteAddress j.moved / 4 ∧ k < j.runEnd j.moved) ∧
      (j.mailboxSlot = none → j.moved < j.length →
        1 ≤ j.cycleLength ∧ (j.moved + j.cycleLength = j.length ∨ (j.address + j.moved + j.cycleLength) % 4 = 0)) ∧
      (j.mailboxSlot = none → ∀ k, j.byteAddress k = j.address + k) ∧
      (∀ slot, j.mailboxSlot = some slot → j.length = 72 → j.address % 4 = 0 → j.moved % 4 = 0 → j.moved < 72 →
        j.cycleLength = 4)) ∧
  (∀ (s : State) (j : Job),
      cycleCells s j = j.cyclePositions.map (fun k => (j.byteAddress k, jobByte s j k)) ∧
      (∀ (b : Fin 24) (k : Fin 64), j.mailboxSlot = none → j.buffer = some b →
        jobByte s j k.val = s.buffers[b].data[k]) ∧
      (∀ (n : Nat) (data : Vector Byte n) (m : Memory) (k : Fin n), (placeBytes data m j)[k] =
        if k.val ∈ j.cyclePositions then Memory.read m (j.byteAddress k.val) else data[k])) ∧
  (∀ (s : State) (j : Job) (k : Fin 8) (op : Operation) (slot len : Nat) (sequence : BitVec 16),
      j.mailboxSlot = some slot → j.owner = .operation k → s.slots[k] = some op → op.length = some len → len ≤ 64 →
      op.mailboxSequence = some sequence →
      (∀ p, p < 64 → j.byteAddress p = j.address + 8 + p) ∧
      (∀ p, 64 ≤ p → p < 72 → j.byteAddress p = j.address + (p - 64)) ∧
      (∀ (b : Fin 24) (p : Fin 64), j.buffer = some b → p.val < len → jobByte s j p.val = s.buffers[b].data[p]) ∧
      (∀ p, len ≤ p → p < 64 → jobByte s j p = 0) ∧
      jobByte s j 64 = BitVec.ofNat 8 len ∧ (jobByte s j 65).toNat = op.requester.toNat ∧
      (jobByte s j 66).toNat + 256 * (jobByte s j 67).toNat = 4096 * op.tag.entry.toNat + op.tag.epoch.toNat ∧
      jobByte s j 68 = op.incarnation ∧ jobByte s j 69 = 0 ∧
      (jobByte s j 70).toNat + 256 * (jobByte s j 71).toNat = sequence.toNat)

/-- R38, R19, R152, R157, R159: the last cycle of a PUT's write to a MEMORY window, in whatever state the window is by
then, settles its record OK, returns its buffer and builds DONE OK; the drain completes at count 0, and the engine goes on
to the next job of its lists (as its owner left them, log 23). -/
def Obligations.PutWriteEnds : Prop :=
  ∀ (s : State) (stores : List Host.Cell) (j : Job) (k : Fin 8) (op : Operation) (i : Fin 32)
    (w : WindowEntry × List Notice), s.engine.job = some j → j.phase = .moving → j.owner = .operation k →
    j.kind = .write → (∀ c ∈ stores, c.1 < 16777216) → (∀ a ∈ j.cycleAddresses, a < 16777216) →
    j.length ≤ j.moved + j.cycleLength → s.slots[k] = some op → op.kind = .put → op.window = some i →
    op.mailboxSlot = none → 1 ≤ s.windows[i].inUse → w = executionEnd i s.windows[i] none [] →
    exec (.busCycleComplete stores) s = .next ((({ s with
      mem := Memory.writeCells (Memory.writeCells s.mem stores) (cycleCells s j)
      windows := s.windows.set i w.1
      notices := w.2.foldl NoticeQueue.post s.notices
      replay := s.replay.set (replayIndex op.requester op.tag.entry) ⟨.settled, op.incarnation, op.tag.epoch, some .ok⟩
      slots := s.slots.set k (some { op with phase := .answering, buffer := none, response := some (.done .ok) })
      sendOrder := s.sendOrder ++ [k] }).returnBuffer op.buffer).jobLetGo)

/-- R38, R45, R152, R157: the last cycle of a GET's read builds a DATA from its buffer, which it keeps. R53, R61: the last
cycle of a mailbox slot write commits the slot, with MAILBOX_ARRIVAL when the committed count was 0 and the entry is OPEN
or PARKED, and none on a CLOSING one. Either drains its window in whatever state it is by then, and the engine goes on to
the next job of its lists (as its owner left them, log 23). -/
def Obligations.ReadAndSlotWriteEnd : Prop :=
  ∀ (s : State) (stores : List Host.Cell) (j : Job) (k : Fin 8) (op : Operation) (i : Fin 32) (m : Memory)
    (w : WindowEntry × List Notice), s.engine.job = some j → j.phase = .moving → j.owner = .operation k →
    (∀ c ∈ stores, c.1 < 16777216) → (∀ a ∈ j.cycleAddresses, a < 16777216) → j.length ≤ j.moved + j.cycleLength →
    s.slots[k] = some op → op.window = some i → 1 ≤ s.windows[i].inUse → m = Memory.writeCells s.mem stores →
    w = executionEnd i s.windows[i] op.mailboxSlot [] →
    (∀ b : Fin 24, j.kind = .read → j.buffer = some b → op.kind = .get → op.mailboxSlot = none →
      exec (.busCycleComplete stores) s = .next ({ s with
        mem := m
        buffers := s.buffers.set b { s.buffers[b] with data := placeBytes s.buffers[b].data m j }
        windows := s.windows.set i w.1
        notices := w.2.foldl NoticeQueue.post s.notices
        slots := s.slots.set k (some { op with phase := .answering, response := some .data })
        sendOrder := s.sendOrder ++ [k] }).jobLetGo) ∧
    (∀ slot : Nat, j.kind = .write → op.kind = .put → op.mailboxSlot = some slot →
      exec (.busCycleComplete stores) s = .next ((({ s with
        mem := Memory.writeCells m (cycleCells s j)
        windows := s.windows.set i w.1
        notices := w.2.foldl NoticeQueue.post s.notices
        replay := s.replay.set (replayIndex op.requester op.tag.entry) ⟨.settled, op.incarnation, op.tag.epoch, some .ok⟩
        slots := s.slots.set k (some { op with phase := .answering, buffer := none, response := some (.done .ok) })
        sendOrder := s.sendOrder ++ [k] }).returnBuffer op.buffer).jobLetGo))

/-- R101, R112, R115 to R117, R152, R157: the end of an entry's staging read queues it, or frees it when its owner is
HALTING; the end of its landing write completes it; a fault of either fails it with LOCAL_FAULT, which halts a RUNNING,
FINISHING or SIGNALLING owner (R89) and only settles the entry of a HALTING one (R90); a RELEASING entry is freed. The
engine goes on to the next job of its lists as its owner left them (log 23), and a freed entry keeps its epoch alone and
holds 0 elsewhere (log 20), both the model's choice. -/
def Obligations.StagingAndLandingEnd : Prop :=
  ∀ (s : State) (j : Job) (i : Fin 16) (e : Entry), s.engine.job = some j → j.owner = .entry i → s.entries[i] = e →
    (∀ (stores : List Host.Cell) (m : Memory) (u : State), j.phase = .moving → (∀ c ∈ stores, c.1 < 16777216) →
      (∀ a ∈ j.cycleAddresses, a < 16777216) → j.length ≤ j.moved + j.cycleLength →
      m = Memory.writeCells s.mem stores →
      (∃ b : Fin 24, j.kind = .read ∧ j.buffer = some b ∧ u = { s with
          mem := m
          buffers := s.buffers.set b { s.buffers[b] with data := placeBytes s.buffers[b].data m j } }) ∨
        j.kind = .write ∧ u = { s with mem := Memory.writeCells m (cycleCells s j) } →
      (e.state = .staging → (∀ c, e.owner = some c → s.channels[c].state ≠ .halting) →
        exec (.busCycleComplete stores) s = .next (({ u with requestQueue := s.requestQueue ++ [i] }).setEntry i
          { e with state := .queued, timer := .stopped }).jobLetGo) ∧
      (∀ c, e.state = .staging → e.owner = some c → s.channels[c].state = .halting →
        exec (.busCycleComplete stores) s = .next (u.settledInHalt i c).jobLetGo) ∧
      (∀ c, e.state = .landing → e.owner = some c →
        exec (.busCycleComplete stores) s = .next (u.entryCompleted i c).jobLetGo) ∧
      (e.state = .releasing → exec (.busCycleComplete stores) s = .next (u.entryFreed i).jobLetGo)) ∧
    (∀ command : Instr, command = .lberr true ∧ j.phase = .moving ∨ command = .grantWaitExpiry ∧ j.phase = .requesting →
      (∀ c, e.state = .staging ∨ e.state = .landing → e.owner = some c →
        s.channels[c].state = .running ∨ s.channels[c].state = .finishing ∨ s.channels[c].state = .signalling →
        exec command s = .next (s.firstFailure i c .localFault).jobLetGo) ∧
      (∀ c, e.state = .staging ∨ e.state = .landing → e.owner = some c → s.channels[c].state = .halting →
        exec command s = .next (s.settledInHalt i c).jobLetGo) ∧
      (e.state = .releasing → exec command s = .next (s.entryFreed i).jobLetGo))

/-- R39, R40, R54, R152, R153, R156: LBERR in a cycle and the grant wait's end both end the job in a fault: memory keeps
the bytes it has, a mailbox slot is committed all the same with any MAILBOX_ARRIVAL (none on a CLOSING entry, R61), then
LOCAL_FAULT is posted, then the drain completes in whatever state the window is; a PUT's record settles FAULT, the buffer
returns to the Pool and DONE FAULT is built; the engine goes on to the next job of its lists (as its owner left them,
log 23). -/
def Obligations.JobFaultAnswersFault : Prop :=
  ∀ (s : State) (j : Job) (k : Fin 8) (op : Operation) (i : Fin 32) (address : Nat) (c : Instr)
    (w : WindowEntry × List Notice), s.engine.job = some j → j.owner = .operation k →
    c = .lberr true ∧ j.phase = .moving ∨ c = .grantWaitExpiry ∧ j.phase = .requesting →
    s.slots[k] = some op → op.kind = .put ∨ op.kind = .get → op.window = some i → op.localAddress = some address →
    1 ≤ s.windows[i].inUse →
    w = executionEnd i s.windows[i] op.mailboxSlot [.localFault i address op.mailboxSlot] →
    exec c s = .next ((({ s with
      windows := s.windows.set i w.1
      notices := w.2.foldl NoticeQueue.post s.notices
      replay := if op.kind = RequestKind.put then
          s.replay.set (replayIndex op.requester op.tag.entry) ⟨.settled, op.incarnation, op.tag.epoch, some .fault⟩
        else s.replay
      slots := s.slots.set k (some { op with phase := .answering, buffer := none, response := some (.done .fault) })
      sendOrder := s.sendOrder ++ [k] }).returnBuffer op.buffer).jobLetGo)

/-- R3, R24, R41, R66, R99, R120, R146, R161, R165, R178, R183 to R185: a full reset sets every block but local memory to
the values spelled in AtFullReset, and a release begins the start read with the straps it samples (what a cut write
cycle's bytes hold is a free value, log 7; a kind of 0 read as the first of its list is log 20). -/
def Obligations.ResetsClearBlocks : Prop :=
  ∀ (s : State) (straps : Station),
    (∃ t, exec (.resetAsserted straps) s = .next t ∧ AtFullReset t ∧
      t.pins = { s.pins with resetHeld := true, straps := straps } ∧
      ((∀ j, s.engine.job = some j → j.phase = .moving → j.kind = .read) → t.mem = s.mem ∧ t.freeCount = s.freeCount) ∧
      (Memory.wf s.mem = true → ∀ j, s.engine.job = some j → j.phase = .moving → j.kind = .write → ∀ a, a ∉ j.cycleAddresses →
        Memory.read t.mem a = Memory.read s.mem a)) ∧
    (s.pins.resetHeld = false →
      ∃ t u, exec (.resetAsserted straps) s = .next t ∧ exec (.resetReleased straps) t = .next u ∧
        exec (.stationReset straps) s = .next u) ∧
    (s.pins.resetHeld = true →
      exec (.resetReleased straps) s = .next
        { s with
          pins := { s.pins with resetHeld := false, straps := straps }
          loader := { s.loader with number := straps }
          engine := engineStarted s.engine s.pins.lbgnt 255
            ⟨.read, .start, 0, 44, none, .loader, .listed, 0, none, false⟩ })

/-- R186, R187, R188, R189, R195, R160, R128: the loader's decision at the end of the start read on its eleven little-endian
words, the first case that applies, and the events that end it. That a frame on the line at that moment is out of step
until a start mark is the model's own
receipt state (log 13). -/
def Obligations.StartDecided : Prop :=
  (∀ (s : State) (faulted : Bool) (w : Nat → Nat) (fail : StartReason → State),
    (∀ k : Fin 11, w k.val = s.loader.holding[4 * k.val].toNat + 256 * s.loader.holding[4 * k.val + 1].toNat +
      65536 * s.loader.holding[4 * k.val + 2].toNat + 16777216 * s.loader.holding[4 * k.val + 3].toNat) →
    fail = (fun r => ({ s with loader := { s.loader with station := .startFailed, reason := some r } }).post
      (.startFailed r)) →
    s.decideStart faulted =
      if faulted then fail .memory
      else if w 0 ≠ 1 then fail .format
      else if (w 0 + w 1 + w 2 + w 3 + w 4 + w 5 + w 6 + w 7 + w 8 + w 9 + w 10) % 4294967296 ≠ 0 then fail .checksum
      else if w 1 ≤ 3 ∧ w 2 ≤ 1 ∧ w 3 ≤ 255 ∧ (1 ≤ w 4 ∧ w 4 ≤ 255) ∧ w 5 ≤ 15 ∧ (1 ≤ w 6 ∧ w 6 ≤ 255) ∧
          (1 ≤ w 7 ∧ w 7 ≤ 255) ∧ 1 ≤ w 8 ∧ w 8 ≤ 255 then
        { s with
          loader := { s.loader with
            station := .running
            config :=
              { lineRate := w 1, policy := if w 2 = 0 then .rotating else .fixed
                incarnation := BitVec.ofNat 8 (w 3), responseLimit := w 4, retryLimit := w 5
                holdInterval := w 6, holdLimit := w 7, grantWait := w 8
                signalGrants := BitVec.ofNat 32 (w 9) } }
          line := { s.line with state := .joining, joinTimer := some 0, rx := .outOfStep } }
      else fail .range) ∧
  (∀ (s : State) (j : Job) (u : State), s.engine.job = some j → j.owner = .loader → s.engine.responder = [] →
    s.engine.requester = [] →
    u = { s with engine := { s.engine with job := none, timer := none, lbreq := false } } →
    (j.phase = .moving → exec (.lberr true) s = .next (u.decideStart true)) ∧
    (j.phase = .requesting → exec .grantWaitExpiry s = .next (u.decideStart true)) ∧
    (∀ (stores : List Host.Cell) (m : Memory), j.phase = .moving → j.kind = .read → j.buffer = none →
      (∀ c ∈ stores, c.1 < 16777216) → (∀ a ∈ j.cycleAddresses, a < 16777216) → j.length ≤ j.moved + j.cycleLength →
      m = Memory.writeCells s.mem stores →
      exec (.busCycleComplete stores) s = .next
        ({ u with mem := m, loader := { s.loader with holding := placeBytes s.loader.holding m j } }.decideStart false)))

/-! ### Frames on the line (R122 to R124, R193, R194) -/

/-- R122, R193: the bits of each kind of frame, field by field, each most significant bit first. R123, R194: the CRC register
starts at all ones, takes one bit at a time, and follows the fields from bit 15 down. R124: what the line's conditions make
a good frame is exactly what a sender of that frame drives, its extent known, followed by anything but an abort mark; every
other run of conditions is a bad frame. R124: a frame's extent is known from its class, kind and length, whatever follows. -/
def Obligations.FrameRoundTrip : Prop :=
  (crc [] = 0xFFFF#16 ∧ ∀ (bits : List Bool) (bit : Bool), crc (bits ++ [bit]) =
    if (bit ^^ (crc bits).getLsbD 15) = true then (crc bits <<< 1) ^^^ 4129#16 else crc bits <<< 1) ∧
  (∀ (c : Claim) (body : FrameBody), (Frame.mk c body).bits = [c.request] ++ msbFirst c.rank ++ msbFirst c.sender ++
    match body with
    | .put d inc t w off len pay => msbFirst 1#3 ++ msbFirst d ++ msbFirst inc ++ msbFirst t.entry ++ msbFirst t.epoch ++
        msbFirst w ++ msbFirst off ++ msbFirst len ++ pay.flatMap msbFirst
    | .get d inc t w off len => msbFirst 2#3 ++ msbFirst d ++ msbFirst inc ++ msbFirst t.entry ++ msbFirst t.epoch ++
        msbFirst w ++ msbFirst off ++ msbFirst len
    | .signal d inc t value => msbFirst 3#3 ++ msbFirst d ++ msbFirst inc ++ msbFirst t.entry ++ msbFirst t.epoch ++
        msbFirst value
    | .data d t len pay => msbFirst 4#3 ++ msbFirst d ++ msbFirst t.entry ++ msbFirst t.epoch ++ msbFirst len ++
        pay.flatMap msbFirst
    | .done d t o => msbFirst 5#3 ++ msbFirst d ++ msbFirst t.entry ++ msbFirst t.epoch ++ msbFirst o) ∧
  (∀ (f : Frame) (after : LineCond), f.wire = f.bits ++ msbFirst (crc f.bits) ∧
    f.conds after = f.wire.map (fun bit => if bit then LineCond.bit1 else .bit0) ++ [after]) ∧
  (∀ (conds : List LineCond) (f : Frame), receive conds = some f ↔
    (∃ after, after ≠ .abortMark ∧ conds = f.conds after) ∧
    match f.body with
    | .put _ _ _ _ _ len pay => f.claim.request = true ∧ 1 ≤ len.toNat ∧ len.toNat ≤ 64 ∧ pay.length = len.toNat
    | .get .. => f.claim.request = true
    | .signal .. => f.claim.request = true
    | .data _ _ len pay => f.claim.request = false ∧ 1 ≤ len.toNat ∧ len.toNat ≤ 64 ∧ pay.length = len.toNat
    | .done .. => f.claim.request = false) ∧
  (∀ (c : Claim) (body : FrameBody) (rest : List LineCond),
    frameExtent ((Frame.mk c body).bits.map (fun bit => if bit then LineCond.bit1 else .bit0) ++ rest) =
      match c.request, body with
      | true, .put _ _ _ _ _ len _ =>
        if 1 ≤ len.toNat ∧ len.toNat ≤ 64 then some (79 + 8 * len.toNat + 16) else none
      | true, .get .. => some (79 + 16)
      | true, .signal .. => some (75 + 16)
      | false, .data _ _ len _ =>
        if 1 ≤ len.toNat ∧ len.toNat ≤ 64 then some (42 + 8 * len.toNat + 16) else none
      | false, .done .. => some (38 + 16)
      | _, _ => none) ∧
  (∀ (c : Claim) (kind : BitVec 3) (rest : List LineCond), kind = 0 ∨ kind = 6 ∨ kind = 7 →
    frameExtent ((c.bits ++ msbFirst kind).map (fun bit => if bit then LineCond.bit1 else .bit0) ++ rest) = none) ∧
  (∀ (conds : List LineCond) (n : Nat), frameExtent conds = some n →
    ∀ k, k ∈ [0, 11, 12, 13] → conds[k]? = some .bit0 ∨ conds[k]? = some .bit1)

/-! ### What every step keeps -/

/-- Every predicate holds at reset. -/
def Obligations.PredicatesHoldAtReset : Prop :=
  HeldInv State.reset ∧ NoticesOk State.reset.notices ∧ Memory.wf State.reset.mem = true ∧ LineInv State.reset ∧
  EngineInv State.reset ∧ ChannelInv State.reset ∧ RequestInv State.reset ∧ PoolInv State.reset ∧
  ServeInv State.reset ∧ ReplayInv State.reset

/-- While RESET# is held every block stands at its full-reset value (R178, R183). -/
def Obligations.HeldStaysAtReset : Prop :=
  ∀ s t : State, HeldInv s → step s = .next t → HeldInv t

/-- The Notice Queue keeps its room, its marker last and INT with the count and the enable (R168, R171). -/
def Obligations.NoticesStayWellFormed : Prop :=
  ∀ s t : State, NoticesOk s.notices → step s = .next t → NoticesOk t.notices

/-- Local memory keeps its canonical form and its address space (R150). -/
def Obligations.MemoryStaysCanonical : Prop :=
  ∀ s t : State, Memory.wf s.mem = true → step s = .next t → Memory.wf t.mem = true

/-- The line state, the frame in hand, the clash count and the joining timer stay in step, and the line is OFFLINE
exactly until the station is RUNNING (R119, R128, R141). LineOk's clauses on the receipt (log 13), on the abort mark
(log 29) and on the joining timer stopped outside JOINING (log 15) are about the model's own fields and its own choice,
no rule's. -/
def Obligations.LineStaysInStep : Prop :=
  ∀ s t : State, LineInv s → step s = .next t → LineInv t

/-- LBREQ stands for the started job, and an idle engine leaves no job waiting (R152, R153). EngineOk's clauses on the flag
lastCycle, which a MOVING job has exactly while LBGNT is deasserted, are about the model's own field and its own choice
(log 16), no rule's. -/
def Obligations.EngineStaysInStep : Prop :=
  ∀ s t : State, EngineInv s → step s = .next t → EngineInv t

/-- The laws of the channel records (R68, R79, R198). -/
def Obligations.ChannelsKeepLaws : Prop :=
  ∀ s t : State, ChannelInv s → step s = .next t → ChannelInv t

/-- Live entries, owners, the Request Queue and requester jobs agree (R80, R102). -/
def Obligations.RequestsStayOwned : Prop :=
  ∀ s t : State, RequestInv s → step s = .next t → RequestInv t

/-- Buffers and their owners agree, and the two sides keep their caps (R146, R147). -/
def Obligations.PoolKeepsCaps : Prop :=
  (∀ s t : State, PoolInv s → step s = .next t → PoolInv t) ∧
  (∀ s : State, PoolInv s →
    freeBuffers s + requesterHeld s + responderHeld s = 24 ∧ requesterHeld s ≤ 16 ∧ responderHeld s ≤ 8) ∧
  (∀ s : State,
    freeBuffers s = s.buffers.toList.countP (fun b => b.owner == none) ∧
    requesterHeld s = s.buffers.toList.countP (fun b => match b.owner with
      | some (.entry _) => true
      | _ => false) ∧
    responderHeld s = s.buffers.toList.countP (fun b => match b.owner with
      | some (.operation _) => true
      | _ => false))

/-- In-use counts, operations, jobs, the send order and the mailbox counters agree (R2, R24, R50). -/
def Obligations.ServingStaysInStep : Prop :=
  ∀ s t : State, ServeInv s → step s = .next t → ServeInv t

/-- A replay record is PENDING exactly while its PUT executes (R42). -/
def Obligations.ReplayFollowsPuts : Prop :=
  ∀ s t : State, ReplayInv s → step s = .next t → ReplayInv t
end

