-- ==== Sys2Proof/Laws/State.lean ====
section
/-! SUPPORT. Each field after each named update of State, so that no proof unfolds a record update; and reading a
table back after one of its records is replaced. -/

namespace Sys2Proof.Machine
namespace State

/-! ### setWindow -/

@[simp] theorem setWindow_pending (s : State) (i : Fin 32) (w : WindowEntry) :
    (s.setWindow i w).pending = s.pending := rfl
@[simp] theorem setWindow_pins (s : State) (i : Fin 32) (w : WindowEntry) :
    (s.setWindow i w).pins = s.pins := rfl
@[simp] theorem setWindow_windows (s : State) (i : Fin 32) (w : WindowEntry) :
    (s.setWindow i w).windows = s.windows.set i w := rfl
@[simp] theorem setWindow_slots (s : State) (i : Fin 32) (w : WindowEntry) :
    (s.setWindow i w).slots = s.slots := rfl
@[simp] theorem setWindow_sendOrder (s : State) (i : Fin 32) (w : WindowEntry) :
    (s.setWindow i w).sendOrder = s.sendOrder := rfl
@[simp] theorem setWindow_replay (s : State) (i : Fin 32) (w : WindowEntry) :
    (s.setWindow i w).replay = s.replay := rfl
@[simp] theorem setWindow_channels (s : State) (i : Fin 32) (w : WindowEntry) :
    (s.setWindow i w).channels = s.channels := rfl
@[simp] theorem setWindow_pointer (s : State) (i : Fin 32) (w : WindowEntry) :
    (s.setWindow i w).pointer = s.pointer := rfl
@[simp] theorem setWindow_entries (s : State) (i : Fin 32) (w : WindowEntry) :
    (s.setWindow i w).entries = s.entries := rfl
@[simp] theorem setWindow_requestQueue (s : State) (i : Fin 32) (w : WindowEntry) :
    (s.setWindow i w).requestQueue = s.requestQueue := rfl
@[simp] theorem setWindow_line (s : State) (i : Fin 32) (w : WindowEntry) :
    (s.setWindow i w).line = s.line := rfl
@[simp] theorem setWindow_buffers (s : State) (i : Fin 32) (w : WindowEntry) :
    (s.setWindow i w).buffers = s.buffers := rfl
@[simp] theorem setWindow_engine (s : State) (i : Fin 32) (w : WindowEntry) :
    (s.setWindow i w).engine = s.engine := rfl
@[simp] theorem setWindow_notices (s : State) (i : Fin 32) (w : WindowEntry) :
    (s.setWindow i w).notices = s.notices := rfl
@[simp] theorem setWindow_cmd (s : State) (i : Fin 32) (w : WindowEntry) :
    (s.setWindow i w).cmd = s.cmd := rfl
@[simp] theorem setWindow_args (s : State) (i : Fin 32) (w : WindowEntry) :
    (s.setWindow i w).args = s.args := rfl
@[simp] theorem setWindow_result (s : State) (i : Fin 32) (w : WindowEntry) :
    (s.setWindow i w).result = s.result := rfl
@[simp] theorem setWindow_loader (s : State) (i : Fin 32) (w : WindowEntry) :
    (s.setWindow i w).loader = s.loader := rfl
@[simp] theorem setWindow_mem (s : State) (i : Fin 32) (w : WindowEntry) :
    (s.setWindow i w).mem = s.mem := rfl
@[simp] theorem setWindow_freeCount (s : State) (i : Fin 32) (w : WindowEntry) :
    (s.setWindow i w).freeCount = s.freeCount := rfl

/-! ### setSlot -/

@[simp] theorem setSlot_pending (s : State) (i : Fin 8) (o : Option Operation) :
    (s.setSlot i o).pending = s.pending := rfl
@[simp] theorem setSlot_pins (s : State) (i : Fin 8) (o : Option Operation) :
    (s.setSlot i o).pins = s.pins := rfl
@[simp] theorem setSlot_windows (s : State) (i : Fin 8) (o : Option Operation) :
    (s.setSlot i o).windows = s.windows := rfl
@[simp] theorem setSlot_slots (s : State) (i : Fin 8) (o : Option Operation) :
    (s.setSlot i o).slots = s.slots.set i o := rfl
@[simp] theorem setSlot_sendOrder (s : State) (i : Fin 8) (o : Option Operation) :
    (s.setSlot i o).sendOrder = s.sendOrder := rfl
@[simp] theorem setSlot_replay (s : State) (i : Fin 8) (o : Option Operation) :
    (s.setSlot i o).replay = s.replay := rfl
@[simp] theorem setSlot_channels (s : State) (i : Fin 8) (o : Option Operation) :
    (s.setSlot i o).channels = s.channels := rfl
@[simp] theorem setSlot_pointer (s : State) (i : Fin 8) (o : Option Operation) :
    (s.setSlot i o).pointer = s.pointer := rfl
@[simp] theorem setSlot_entries (s : State) (i : Fin 8) (o : Option Operation) :
    (s.setSlot i o).entries = s.entries := rfl
@[simp] theorem setSlot_requestQueue (s : State) (i : Fin 8) (o : Option Operation) :
    (s.setSlot i o).requestQueue = s.requestQueue := rfl
@[simp] theorem setSlot_line (s : State) (i : Fin 8) (o : Option Operation) :
    (s.setSlot i o).line = s.line := rfl
@[simp] theorem setSlot_buffers (s : State) (i : Fin 8) (o : Option Operation) :
    (s.setSlot i o).buffers = s.buffers := rfl
@[simp] theorem setSlot_engine (s : State) (i : Fin 8) (o : Option Operation) :
    (s.setSlot i o).engine = s.engine := rfl
@[simp] theorem setSlot_notices (s : State) (i : Fin 8) (o : Option Operation) :
    (s.setSlot i o).notices = s.notices := rfl
@[simp] theorem setSlot_cmd (s : State) (i : Fin 8) (o : Option Operation) :
    (s.setSlot i o).cmd = s.cmd := rfl
@[simp] theorem setSlot_args (s : State) (i : Fin 8) (o : Option Operation) :
    (s.setSlot i o).args = s.args := rfl
@[simp] theorem setSlot_result (s : State) (i : Fin 8) (o : Option Operation) :
    (s.setSlot i o).result = s.result := rfl
@[simp] theorem setSlot_loader (s : State) (i : Fin 8) (o : Option Operation) :
    (s.setSlot i o).loader = s.loader := rfl
@[simp] theorem setSlot_mem (s : State) (i : Fin 8) (o : Option Operation) :
    (s.setSlot i o).mem = s.mem := rfl
@[simp] theorem setSlot_freeCount (s : State) (i : Fin 8) (o : Option Operation) :
    (s.setSlot i o).freeCount = s.freeCount := rfl

/-! ### setReplay -/

@[simp] theorem setReplay_pending (s : State) (k : Fin 512) (r : ReplayRecord) :
    (s.setReplay k r).pending = s.pending := rfl
@[simp] theorem setReplay_pins (s : State) (k : Fin 512) (r : ReplayRecord) :
    (s.setReplay k r).pins = s.pins := rfl
@[simp] theorem setReplay_windows (s : State) (k : Fin 512) (r : ReplayRecord) :
    (s.setReplay k r).windows = s.windows := rfl
@[simp] theorem setReplay_slots (s : State) (k : Fin 512) (r : ReplayRecord) :
    (s.setReplay k r).slots = s.slots := rfl
@[simp] theorem setReplay_sendOrder (s : State) (k : Fin 512) (r : ReplayRecord) :
    (s.setReplay k r).sendOrder = s.sendOrder := rfl
@[simp] theorem setReplay_replay (s : State) (k : Fin 512) (r : ReplayRecord) :
    (s.setReplay k r).replay = s.replay.set k r := rfl
@[simp] theorem setReplay_channels (s : State) (k : Fin 512) (r : ReplayRecord) :
    (s.setReplay k r).channels = s.channels := rfl
@[simp] theorem setReplay_pointer (s : State) (k : Fin 512) (r : ReplayRecord) :
    (s.setReplay k r).pointer = s.pointer := rfl
@[simp] theorem setReplay_entries (s : State) (k : Fin 512) (r : ReplayRecord) :
    (s.setReplay k r).entries = s.entries := rfl
@[simp] theorem setReplay_requestQueue (s : State) (k : Fin 512) (r : ReplayRecord) :
    (s.setReplay k r).requestQueue = s.requestQueue := rfl
@[simp] theorem setReplay_line (s : State) (k : Fin 512) (r : ReplayRecord) :
    (s.setReplay k r).line = s.line := rfl
@[simp] theorem setReplay_buffers (s : State) (k : Fin 512) (r : ReplayRecord) :
    (s.setReplay k r).buffers = s.buffers := rfl
@[simp] theorem setReplay_engine (s : State) (k : Fin 512) (r : ReplayRecord) :
    (s.setReplay k r).engine = s.engine := rfl
@[simp] theorem setReplay_notices (s : State) (k : Fin 512) (r : ReplayRecord) :
    (s.setReplay k r).notices = s.notices := rfl
@[simp] theorem setReplay_cmd (s : State) (k : Fin 512) (r : ReplayRecord) :
    (s.setReplay k r).cmd = s.cmd := rfl
@[simp] theorem setReplay_args (s : State) (k : Fin 512) (r : ReplayRecord) :
    (s.setReplay k r).args = s.args := rfl
@[simp] theorem setReplay_result (s : State) (k : Fin 512) (r : ReplayRecord) :
    (s.setReplay k r).result = s.result := rfl
@[simp] theorem setReplay_loader (s : State) (k : Fin 512) (r : ReplayRecord) :
    (s.setReplay k r).loader = s.loader := rfl
@[simp] theorem setReplay_mem (s : State) (k : Fin 512) (r : ReplayRecord) :
    (s.setReplay k r).mem = s.mem := rfl
@[simp] theorem setReplay_freeCount (s : State) (k : Fin 512) (r : ReplayRecord) :
    (s.setReplay k r).freeCount = s.freeCount := rfl

/-! ### setChannel -/

@[simp] theorem setChannel_pending (s : State) (c : Fin 8) (r : Channel) :
    (s.setChannel c r).pending = s.pending := rfl
@[simp] theorem setChannel_pins (s : State) (c : Fin 8) (r : Channel) :
    (s.setChannel c r).pins = s.pins := rfl
@[simp] theorem setChannel_windows (s : State) (c : Fin 8) (r : Channel) :
    (s.setChannel c r).windows = s.windows := rfl
@[simp] theorem setChannel_slots (s : State) (c : Fin 8) (r : Channel) :
    (s.setChannel c r).slots = s.slots := rfl
@[simp] theorem setChannel_sendOrder (s : State) (c : Fin 8) (r : Channel) :
    (s.setChannel c r).sendOrder = s.sendOrder := rfl
@[simp] theorem setChannel_replay (s : State) (c : Fin 8) (r : Channel) :
    (s.setChannel c r).replay = s.replay := rfl
@[simp] theorem setChannel_channels (s : State) (c : Fin 8) (r : Channel) :
    (s.setChannel c r).channels = s.channels.set c r := rfl
@[simp] theorem setChannel_pointer (s : State) (c : Fin 8) (r : Channel) :
    (s.setChannel c r).pointer = s.pointer := rfl
@[simp] theorem setChannel_entries (s : State) (c : Fin 8) (r : Channel) :
    (s.setChannel c r).entries = s.entries := rfl
@[simp] theorem setChannel_requestQueue (s : State) (c : Fin 8) (r : Channel) :
    (s.setChannel c r).requestQueue = s.requestQueue := rfl
@[simp] theorem setChannel_line (s : State) (c : Fin 8) (r : Channel) :
    (s.setChannel c r).line = s.line := rfl
@[simp] theorem setChannel_buffers (s : State) (c : Fin 8) (r : Channel) :
    (s.setChannel c r).buffers = s.buffers := rfl
@[simp] theorem setChannel_engine (s : State) (c : Fin 8) (r : Channel) :
    (s.setChannel c r).engine = s.engine := rfl
@[simp] theorem setChannel_notices (s : State) (c : Fin 8) (r : Channel) :
    (s.setChannel c r).notices = s.notices := rfl
@[simp] theorem setChannel_cmd (s : State) (c : Fin 8) (r : Channel) :
    (s.setChannel c r).cmd = s.cmd := rfl
@[simp] theorem setChannel_args (s : State) (c : Fin 8) (r : Channel) :
    (s.setChannel c r).args = s.args := rfl
@[simp] theorem setChannel_result (s : State) (c : Fin 8) (r : Channel) :
    (s.setChannel c r).result = s.result := rfl
@[simp] theorem setChannel_loader (s : State) (c : Fin 8) (r : Channel) :
    (s.setChannel c r).loader = s.loader := rfl
@[simp] theorem setChannel_mem (s : State) (c : Fin 8) (r : Channel) :
    (s.setChannel c r).mem = s.mem := rfl
@[simp] theorem setChannel_freeCount (s : State) (c : Fin 8) (r : Channel) :
    (s.setChannel c r).freeCount = s.freeCount := rfl

/-! ### setEntry -/

@[simp] theorem setEntry_pending (s : State) (i : Fin 16) (e : Entry) :
    (s.setEntry i e).pending = s.pending := rfl
@[simp] theorem setEntry_pins (s : State) (i : Fin 16) (e : Entry) :
    (s.setEntry i e).pins = s.pins := rfl
@[simp] theorem setEntry_windows (s : State) (i : Fin 16) (e : Entry) :
    (s.setEntry i e).windows = s.windows := rfl
@[simp] theorem setEntry_slots (s : State) (i : Fin 16) (e : Entry) :
    (s.setEntry i e).slots = s.slots := rfl
@[simp] theorem setEntry_sendOrder (s : State) (i : Fin 16) (e : Entry) :
    (s.setEntry i e).sendOrder = s.sendOrder := rfl
@[simp] theorem setEntry_replay (s : State) (i : Fin 16) (e : Entry) :
    (s.setEntry i e).replay = s.replay := rfl
@[simp] theorem setEntry_channels (s : State) (i : Fin 16) (e : Entry) :
    (s.setEntry i e).channels = s.channels := rfl
@[simp] theorem setEntry_pointer (s : State) (i : Fin 16) (e : Entry) :
    (s.setEntry i e).pointer = s.pointer := rfl
@[simp] theorem setEntry_entries (s : State) (i : Fin 16) (e : Entry) :
    (s.setEntry i e).entries = s.entries.set i e := rfl
@[simp] theorem setEntry_requestQueue (s : State) (i : Fin 16) (e : Entry) :
    (s.setEntry i e).requestQueue = s.requestQueue := rfl
@[simp] theorem setEntry_line (s : State) (i : Fin 16) (e : Entry) :
    (s.setEntry i e).line = s.line := rfl
@[simp] theorem setEntry_buffers (s : State) (i : Fin 16) (e : Entry) :
    (s.setEntry i e).buffers = s.buffers := rfl
@[simp] theorem setEntry_engine (s : State) (i : Fin 16) (e : Entry) :
    (s.setEntry i e).engine = s.engine := rfl
@[simp] theorem setEntry_notices (s : State) (i : Fin 16) (e : Entry) :
    (s.setEntry i e).notices = s.notices := rfl
@[simp] theorem setEntry_cmd (s : State) (i : Fin 16) (e : Entry) :
    (s.setEntry i e).cmd = s.cmd := rfl
@[simp] theorem setEntry_args (s : State) (i : Fin 16) (e : Entry) :
    (s.setEntry i e).args = s.args := rfl
@[simp] theorem setEntry_result (s : State) (i : Fin 16) (e : Entry) :
    (s.setEntry i e).result = s.result := rfl
@[simp] theorem setEntry_loader (s : State) (i : Fin 16) (e : Entry) :
    (s.setEntry i e).loader = s.loader := rfl
@[simp] theorem setEntry_mem (s : State) (i : Fin 16) (e : Entry) :
    (s.setEntry i e).mem = s.mem := rfl
@[simp] theorem setEntry_freeCount (s : State) (i : Fin 16) (e : Entry) :
    (s.setEntry i e).freeCount = s.freeCount := rfl

/-! ### setBuffer -/

@[simp] theorem setBuffer_pending (s : State) (b : Fin 24) (x : Buffer) :
    (s.setBuffer b x).pending = s.pending := rfl
@[simp] theorem setBuffer_pins (s : State) (b : Fin 24) (x : Buffer) :
    (s.setBuffer b x).pins = s.pins := rfl
@[simp] theorem setBuffer_windows (s : State) (b : Fin 24) (x : Buffer) :
    (s.setBuffer b x).windows = s.windows := rfl
@[simp] theorem setBuffer_slots (s : State) (b : Fin 24) (x : Buffer) :
    (s.setBuffer b x).slots = s.slots := rfl
@[simp] theorem setBuffer_sendOrder (s : State) (b : Fin 24) (x : Buffer) :
    (s.setBuffer b x).sendOrder = s.sendOrder := rfl
@[simp] theorem setBuffer_replay (s : State) (b : Fin 24) (x : Buffer) :
    (s.setBuffer b x).replay = s.replay := rfl
@[simp] theorem setBuffer_channels (s : State) (b : Fin 24) (x : Buffer) :
    (s.setBuffer b x).channels = s.channels := rfl
@[simp] theorem setBuffer_pointer (s : State) (b : Fin 24) (x : Buffer) :
    (s.setBuffer b x).pointer = s.pointer := rfl
@[simp] theorem setBuffer_entries (s : State) (b : Fin 24) (x : Buffer) :
    (s.setBuffer b x).entries = s.entries := rfl
@[simp] theorem setBuffer_requestQueue (s : State) (b : Fin 24) (x : Buffer) :
    (s.setBuffer b x).requestQueue = s.requestQueue := rfl
@[simp] theorem setBuffer_line (s : State) (b : Fin 24) (x : Buffer) :
    (s.setBuffer b x).line = s.line := rfl
@[simp] theorem setBuffer_buffers (s : State) (b : Fin 24) (x : Buffer) :
    (s.setBuffer b x).buffers = s.buffers.set b x := rfl
@[simp] theorem setBuffer_engine (s : State) (b : Fin 24) (x : Buffer) :
    (s.setBuffer b x).engine = s.engine := rfl
@[simp] theorem setBuffer_notices (s : State) (b : Fin 24) (x : Buffer) :
    (s.setBuffer b x).notices = s.notices := rfl
@[simp] theorem setBuffer_cmd (s : State) (b : Fin 24) (x : Buffer) :
    (s.setBuffer b x).cmd = s.cmd := rfl
@[simp] theorem setBuffer_args (s : State) (b : Fin 24) (x : Buffer) :
    (s.setBuffer b x).args = s.args := rfl
@[simp] theorem setBuffer_result (s : State) (b : Fin 24) (x : Buffer) :
    (s.setBuffer b x).result = s.result := rfl
@[simp] theorem setBuffer_loader (s : State) (b : Fin 24) (x : Buffer) :
    (s.setBuffer b x).loader = s.loader := rfl
@[simp] theorem setBuffer_mem (s : State) (b : Fin 24) (x : Buffer) :
    (s.setBuffer b x).mem = s.mem := rfl
@[simp] theorem setBuffer_freeCount (s : State) (b : Fin 24) (x : Buffer) :
    (s.setBuffer b x).freeCount = s.freeCount := rfl

/-! ### setLine -/

@[simp] theorem setLine_pending (s : State) (l : Line) :
    (s.setLine l).pending = s.pending := rfl
@[simp] theorem setLine_pins (s : State) (l : Line) :
    (s.setLine l).pins = s.pins := rfl
@[simp] theorem setLine_windows (s : State) (l : Line) :
    (s.setLine l).windows = s.windows := rfl
@[simp] theorem setLine_slots (s : State) (l : Line) :
    (s.setLine l).slots = s.slots := rfl
@[simp] theorem setLine_sendOrder (s : State) (l : Line) :
    (s.setLine l).sendOrder = s.sendOrder := rfl
@[simp] theorem setLine_replay (s : State) (l : Line) :
    (s.setLine l).replay = s.replay := rfl
@[simp] theorem setLine_channels (s : State) (l : Line) :
    (s.setLine l).channels = s.channels := rfl
@[simp] theorem setLine_pointer (s : State) (l : Line) :
    (s.setLine l).pointer = s.pointer := rfl
@[simp] theorem setLine_entries (s : State) (l : Line) :
    (s.setLine l).entries = s.entries := rfl
@[simp] theorem setLine_requestQueue (s : State) (l : Line) :
    (s.setLine l).requestQueue = s.requestQueue := rfl
@[simp] theorem setLine_line (s : State) (l : Line) :
    (s.setLine l).line = l := rfl
@[simp] theorem setLine_buffers (s : State) (l : Line) :
    (s.setLine l).buffers = s.buffers := rfl
@[simp] theorem setLine_engine (s : State) (l : Line) :
    (s.setLine l).engine = s.engine := rfl
@[simp] theorem setLine_notices (s : State) (l : Line) :
    (s.setLine l).notices = s.notices := rfl
@[simp] theorem setLine_cmd (s : State) (l : Line) :
    (s.setLine l).cmd = s.cmd := rfl
@[simp] theorem setLine_args (s : State) (l : Line) :
    (s.setLine l).args = s.args := rfl
@[simp] theorem setLine_result (s : State) (l : Line) :
    (s.setLine l).result = s.result := rfl
@[simp] theorem setLine_loader (s : State) (l : Line) :
    (s.setLine l).loader = s.loader := rfl
@[simp] theorem setLine_mem (s : State) (l : Line) :
    (s.setLine l).mem = s.mem := rfl
@[simp] theorem setLine_freeCount (s : State) (l : Line) :
    (s.setLine l).freeCount = s.freeCount := rfl

/-! ### setEngine -/

@[simp] theorem setEngine_pending (s : State) (e : Engine) :
    (s.setEngine e).pending = s.pending := rfl
@[simp] theorem setEngine_pins (s : State) (e : Engine) :
    (s.setEngine e).pins = s.pins := rfl
@[simp] theorem setEngine_windows (s : State) (e : Engine) :
    (s.setEngine e).windows = s.windows := rfl
@[simp] theorem setEngine_slots (s : State) (e : Engine) :
    (s.setEngine e).slots = s.slots := rfl
@[simp] theorem setEngine_sendOrder (s : State) (e : Engine) :
    (s.setEngine e).sendOrder = s.sendOrder := rfl
@[simp] theorem setEngine_replay (s : State) (e : Engine) :
    (s.setEngine e).replay = s.replay := rfl
@[simp] theorem setEngine_channels (s : State) (e : Engine) :
    (s.setEngine e).channels = s.channels := rfl
@[simp] theorem setEngine_pointer (s : State) (e : Engine) :
    (s.setEngine e).pointer = s.pointer := rfl
@[simp] theorem setEngine_entries (s : State) (e : Engine) :
    (s.setEngine e).entries = s.entries := rfl
@[simp] theorem setEngine_requestQueue (s : State) (e : Engine) :
    (s.setEngine e).requestQueue = s.requestQueue := rfl
@[simp] theorem setEngine_line (s : State) (e : Engine) :
    (s.setEngine e).line = s.line := rfl
@[simp] theorem setEngine_buffers (s : State) (e : Engine) :
    (s.setEngine e).buffers = s.buffers := rfl
@[simp] theorem setEngine_engine (s : State) (e : Engine) :
    (s.setEngine e).engine = e := rfl
@[simp] theorem setEngine_notices (s : State) (e : Engine) :
    (s.setEngine e).notices = s.notices := rfl
@[simp] theorem setEngine_cmd (s : State) (e : Engine) :
    (s.setEngine e).cmd = s.cmd := rfl
@[simp] theorem setEngine_args (s : State) (e : Engine) :
    (s.setEngine e).args = s.args := rfl
@[simp] theorem setEngine_result (s : State) (e : Engine) :
    (s.setEngine e).result = s.result := rfl
@[simp] theorem setEngine_loader (s : State) (e : Engine) :
    (s.setEngine e).loader = s.loader := rfl
@[simp] theorem setEngine_mem (s : State) (e : Engine) :
    (s.setEngine e).mem = s.mem := rfl
@[simp] theorem setEngine_freeCount (s : State) (e : Engine) :
    (s.setEngine e).freeCount = s.freeCount := rfl

/-! ### post -/

@[simp] theorem post_pending (s : State) (n : Notice) :
    (s.post n).pending = s.pending := rfl
@[simp] theorem post_pins (s : State) (n : Notice) :
    (s.post n).pins = s.pins := rfl
@[simp] theorem post_windows (s : State) (n : Notice) :
    (s.post n).windows = s.windows := rfl
@[simp] theorem post_slots (s : State) (n : Notice) :
    (s.post n).slots = s.slots := rfl
@[simp] theorem post_sendOrder (s : State) (n : Notice) :
    (s.post n).sendOrder = s.sendOrder := rfl
@[simp] theorem post_replay (s : State) (n : Notice) :
    (s.post n).replay = s.replay := rfl
@[simp] theorem post_channels (s : State) (n : Notice) :
    (s.post n).channels = s.channels := rfl
@[simp] theorem post_pointer (s : State) (n : Notice) :
    (s.post n).pointer = s.pointer := rfl
@[simp] theorem post_entries (s : State) (n : Notice) :
    (s.post n).entries = s.entries := rfl
@[simp] theorem post_requestQueue (s : State) (n : Notice) :
    (s.post n).requestQueue = s.requestQueue := rfl
@[simp] theorem post_line (s : State) (n : Notice) :
    (s.post n).line = s.line := rfl
@[simp] theorem post_buffers (s : State) (n : Notice) :
    (s.post n).buffers = s.buffers := rfl
@[simp] theorem post_engine (s : State) (n : Notice) :
    (s.post n).engine = s.engine := rfl
@[simp] theorem post_notices (s : State) (n : Notice) :
    (s.post n).notices = s.notices.post n := rfl
@[simp] theorem post_cmd (s : State) (n : Notice) :
    (s.post n).cmd = s.cmd := rfl
@[simp] theorem post_args (s : State) (n : Notice) :
    (s.post n).args = s.args := rfl
@[simp] theorem post_result (s : State) (n : Notice) :
    (s.post n).result = s.result := rfl
@[simp] theorem post_loader (s : State) (n : Notice) :
    (s.post n).loader = s.loader := rfl
@[simp] theorem post_mem (s : State) (n : Notice) :
    (s.post n).mem = s.mem := rfl
@[simp] theorem post_freeCount (s : State) (n : Notice) :
    (s.post n).freeCount = s.freeCount := rfl

end State

/-! ### Reading back -/

/-- Reading a table at any place after one of its records is replaced. -/
theorem getElem_set_fin {α : Type} {n : Nat} (v : Vector α n) (i j : Fin n) (x : α) :
    (v.set i x)[j] = if i = j then x else v[j] := by
  simp [Vector.getElem_set, Fin.ext_iff]

@[simp] theorem setWindow_get_self (s : State) (i : Fin 32) (x : WindowEntry) : (s.setWindow i x).windows[i] = x :=
  (getElem_set_fin _ i i x).trans (if_pos rfl)

theorem setWindow_get_other (s : State) (i j : Fin 32) (x : WindowEntry) (h : i ≠ j) :
    (s.setWindow i x).windows[j] = s.windows[j] :=
  (getElem_set_fin _ i j x).trans (if_neg h)

@[simp] theorem setSlot_get_self (s : State) (i : Fin 8) (x : Option Operation) : (s.setSlot i x).slots[i] = x :=
  (getElem_set_fin _ i i x).trans (if_pos rfl)

theorem setSlot_get_other (s : State) (i j : Fin 8) (x : Option Operation) (h : i ≠ j) :
    (s.setSlot i x).slots[j] = s.slots[j] :=
  (getElem_set_fin _ i j x).trans (if_neg h)

@[simp] theorem setReplay_get_self (s : State) (i : Fin 512) (x : ReplayRecord) : (s.setReplay i x).replay[i] = x :=
  (getElem_set_fin _ i i x).trans (if_pos rfl)

theorem setReplay_get_other (s : State) (i j : Fin 512) (x : ReplayRecord) (h : i ≠ j) :
    (s.setReplay i x).replay[j] = s.replay[j] :=
  (getElem_set_fin _ i j x).trans (if_neg h)

@[simp] theorem setChannel_get_self (s : State) (i : Fin 8) (x : Channel) : (s.setChannel i x).channels[i] = x :=
  (getElem_set_fin _ i i x).trans (if_pos rfl)

theorem setChannel_get_other (s : State) (i j : Fin 8) (x : Channel) (h : i ≠ j) :
    (s.setChannel i x).channels[j] = s.channels[j] :=
  (getElem_set_fin _ i j x).trans (if_neg h)

@[simp] theorem setEntry_get_self (s : State) (i : Fin 16) (x : Entry) : (s.setEntry i x).entries[i] = x :=
  (getElem_set_fin _ i i x).trans (if_pos rfl)

theorem setEntry_get_other (s : State) (i j : Fin 16) (x : Entry) (h : i ≠ j) :
    (s.setEntry i x).entries[j] = s.entries[j] :=
  (getElem_set_fin _ i j x).trans (if_neg h)

@[simp] theorem setBuffer_get_self (s : State) (i : Fin 24) (x : Buffer) : (s.setBuffer i x).buffers[i] = x :=
  (getElem_set_fin _ i i x).trans (if_pos rfl)

theorem setBuffer_get_other (s : State) (i j : Fin 24) (x : Buffer) (h : i ≠ j) :
    (s.setBuffer i x).buffers[j] = s.buffers[j] :=
  (getElem_set_fin _ i j x).trans (if_neg h)

end Sys2Proof.Machine
end

