-- ==== Sys2Proof/Laws/Commands.lean ====
section
/-! SUPPORT. The port's part of a command, case by case (R178, R179), and the argument checks of the window and the
channel commands (R4, R67). -/

namespace Sys2Proof.Machine

/-- A named command while the station is RUNNING is its owner's. -/
theorem takeCommand_ready {s : State} (h : Ready s) (code : Word) (owner : State → State × Result) :
    takeCommand code owner s =
      { (owner { s with cmd := code }).1 with result := (owner { s with cmd := code }).2 } := by
  simp [takeCommand, h.1, h.2]

/-- A named command before the station is RUNNING is answered NOT_READY. -/
theorem takeCommand_notReady {s : State} (hr : s.pins.resetHeld = false) (hs : s.loader.station ≠ .running)
    (code : Word) (owner : State → State × Result) :
    takeCommand code owner s = { s with cmd := code, result := .notReady } := by
  simp [takeCommand, hr, hs]

/-- A write while RESET# is held is ignored. -/
theorem takeCommand_held {s : State} (h : s.pins.resetHeld = true) (code : Word)
    (owner : State → State × Result) : takeCommand code owner s = s := by
  simp [takeCommand, h]

/-- A window command with a window argument above 31 answers BAD_ARG and changes nothing. -/
theorem onWindow_badArg {s : State} (h : 32 ≤ argWindow s) (taken act) : onWindow taken act s = (s, .badArg) := by
  simp [onWindow, Nat.not_lt.mpr h]

/-- A window command on an entry in another state answers WRONG_STATE and changes nothing. -/
theorem onWindow_wrongState {s : State} (h : argWindow s < 32) {taken : WindowState → Bool}
    (ht : taken s.windows[argWindow s].state = false) (act) : onWindow taken act s = (s, .wrongState) := by
  simp [onWindow, h, ht]

/-- A window command that passes its first two checks acts on the entry. -/
theorem onWindow_taken {s : State} (h : argWindow s < 32) {taken : WindowState → Bool}
    (ht : taken s.windows[argWindow s].state = true) (act) :
    onWindow taken act s = act ⟨argWindow s, h⟩ s.windows[argWindow s] s := by
  simp [onWindow, h, ht]

/-- A channel command with a channel argument above 7 answers BAD_ARG and changes nothing. -/
theorem onChannel_badArg {s : State} (h : 8 ≤ argChannel s) (taken act) : onChannel taken act s = (s, .badArg) := by
  simp [onChannel, Nat.not_lt.mpr h]

/-- A channel command on a record in another state answers WRONG_STATE and changes nothing. -/
theorem onChannel_wrongState {s : State} (h : argChannel s < 8) {taken : ChannelState → Bool}
    (ht : taken s.channels[argChannel s].state = false) (act) : onChannel taken act s = (s, .wrongState) := by
  simp [onChannel, h, ht]

/-- A channel command that passes its first two checks acts on the record. -/
theorem onChannel_taken {s : State} (h : argChannel s < 8) {taken : ChannelState → Bool}
    (ht : taken s.channels[argChannel s].state = true) (act) :
    onChannel taken act s = act ⟨argChannel s, h⟩ s.channels[argChannel s] s := by
  simp [onChannel, h, ht]

end Sys2Proof.Machine
end

