-- ==== Sys2Proof/Laws/Copies.lean ====
section
/-! SUPPORT. The words of the query copies and of STATUS as numbers: each word of a copy by its place, and the value of
a packed word. -/

namespace Sys2Proof.Machine

/-- A packed word is the sum of its fields, modulo 2^32. -/
theorem packed_toNat (parts : List Nat) : (packed parts).toNat = parts.sum % 4294967296 :=
  BitVec.toNat_ofNat _ _

/-- A field of a word is its bits, as a number. -/
theorem wordField_eq (w : Word) (lo n : Nat) : wordField w lo n = (w.extractLsb' lo n).toNat := by
  simp [wordField, Nat.shiftRight_eq_div_pow]

/-- A field that fits its width stands whole at its place. -/
theorem placed_of_lt {low width v : Nat} (h : v < 2 ^ width) : placed low width v = v * 2 ^ low := by
  rw [placed, Nat.mod_eq_of_lt h]

/-- A flag at its place. -/
theorem placedFlag_eq (bit : Nat) (b : Bool) : placedFlag bit b = b.toNat * 2 ^ bit := by
  cases b <;> simp [placedFlag, placed]

theorem windowCopy_0 (w : WindowEntry) :
    (windowCopy w)[0] = packed [placed 0 2 w.state.code, placed 2 1 w.kind.code, placedFlag 3 w.touched,
      placedFlag 4 w.quietWanted, placed 8 4 w.inUse, placed 12 4 w.reserved, placed 16 9 w.slotCount] := rfl

theorem windowCopy_1 (w : WindowEntry) : (windowCopy w)[1] = packed [placed 0 24 w.base, placed 24 8 w.head] := rfl

theorem windowCopy_2 (w : WindowEntry) : (windowCopy w)[2] = packed [placed 0 24 w.limit] := rfl

theorem windowCopy_3 (w : WindowEntry) : (windowCopy w)[3] = w.readGrants := rfl

theorem windowCopy_4 (w : WindowEntry) : (windowCopy w)[4] = w.writeGrants := rfl

theorem windowCopy_5 (w : WindowEntry) :
    (windowCopy w)[5] = packed [placed 0 16 w.sequence.toNat, placed 16 9 w.committed] := rfl

theorem channelCopy_0 (c : Channel) :
    (channelCopy c)[0] = packed [placed 0 25 c.initialCount, placed 25 3 c.state.code,
      placed 28 4 c.faultCode.code] := rfl

theorem channelCopy_1 (c : Channel) :
    (channelCopy c)[1] = packed [placed 0 24 c.initialRemote, placed 24 7 c.frameSize,
      placed 31 1 c.direction.code] := rfl

theorem channelCopy_2 (c : Channel) :
    (channelCopy c)[2] = packed [placed 0 24 c.initialLocal, placed 24 5 c.target.toNat, placed 29 3 c.depth] := rfl

theorem channelCopy_3 (c : Channel) :
    (channelCopy c)[3] = packed [placed 0 24 c.faultOffset, placed 24 5 c.window.toNat, placed 29 3 c.live] := rfl

theorem channelCopy_4 (c : Channel) :
    (channelCopy c)[4] = packed [placed 0 25 c.remaining, placedFlag 25 c.mailbox, placedFlag 26 c.reload,
      placedFlag 27 c.paced, placedFlag 28 c.signal.isSome, placedFlag 29 c.armed, placedFlag 30 c.faultAtSignal,
      placedFlag 31 (decide (c.faultOffset = Config.memorySize))] := rfl

theorem channelCopy_5 (c : Channel) : (channelCopy c)[5] = c.signal.getD 0 := rfl

end Sys2Proof.Machine
end

