-- ==== Sys2Proof/Laws/Ends.lean ====
section
/-! SUPPORT. What the end of an entry, of an operation and of a job come to: the model's operations equal the words
of Safety.lean that the statements use. -/

namespace Sys2Proof.Machine

/-! ### Letting a job go -/

/-- Releasing the engine and selecting from its lists is letting the job go (R152, R157). -/
theorem releaseEngine_selectJob (s : State) : s.releaseEngine.selectJob = s.jobLetGo := by
  cases hr : s.engine.responder <;> cases hq : s.engine.requester <;> cases hg : s.pins.lbgnt <;>
    simp [State.selectJob, State.releaseEngine, State.jobLetGo, State.setEngine, State.startJob, engineStarted, hr, hq, hg,
      grantLimit]

/-- Freeing an entry is `entryFreed`. -/
theorem entryFreed_eq (s : State) (i : Fin 16) : s.freeEntry i = s.entryFreed i := rfl

@[simp] theorem entryFreed_channels (s : State) (i : Fin 16) : (s.entryFreed i).channels = s.channels := by
  unfold State.entryFreed State.returnBuffer; split <;> rfl
@[simp] theorem entryFreed_entries (s : State) (i : Fin 16) :
    (s.entryFreed i).entries = s.entries.set i (Entry.freeWith s.entries[i].epoch) := by
  unfold State.entryFreed State.returnBuffer; split <;> rfl
@[simp] theorem entryFreed_engine (s : State) (i : Fin 16) : (s.entryFreed i).engine = s.engine := by
  unfold State.entryFreed State.returnBuffer; split <;> rfl
@[simp] theorem entryFreed_line (s : State) (i : Fin 16) : (s.entryFreed i).line = s.line := by
  unfold State.entryFreed State.returnBuffer; split <;> rfl
@[simp] theorem entryFreed_requestQueue (s : State) (i : Fin 16) : (s.entryFreed i).requestQueue = s.requestQueue := by
  unfold State.entryFreed State.returnBuffer; split <;> rfl

/-- A HALTING owner's entry settles. -/
theorem settleHalting_lowerLive {s : State} {c : Fin 8} (i : Fin 16) (h : s.channels[c].state = .halting) :
    ((s.entryFreed i).lowerLive c).settleHalting c = s.settledInHalt i c := by
  have h' : s.channels[c.val].state = .halting := h
  by_cases hl : 1 < s.channels[c].live
  · have hl' : 1 < s.channels[c.val].live := hl
    have : ¬ s.channels[c.val].live - 1 = 0 := by omega
    simp [State.settledInHalt, State.lowerLive, State.settleHalting, State.setChannel, h', hl', this]
  · have hl' : ¬ 1 < s.channels[c.val].live := hl
    have : s.channels[c.val].live - 1 = 0 := by omega
    simp [State.settledInHalt, State.lowerLive, State.settleHalting, State.setChannel, h', hl', this]

/-- A final failure under HALTING settles the entry (R90). -/
theorem failEntry_halting {s : State} {i : Fin 16} {c : Fin 8} (code : FaultCode) (ho : s.entries[i].owner = some c)
    (h : s.channels[c].state = .halting) : s.failEntry i code = s.settledInHalt i c := by
  have h' : s.channels[c.val].state = .halting := h
  have ho' : s.entries[i.val].owner = some c := ho
  rw [← settleHalting_lowerLive i h]
  simp [State.failEntry, ho', entryFreed_eq, State.reportFailure, h']

/-- A HALTING owner's entry that would be sent again or held is freed and settles (R116). -/
theorem dropEntry_halting {s : State} {i : Fin 16} {c : Fin 8} (ho : s.entries[i].owner = some c)
    (h : s.channels[c].state = .halting) : s.dropEntry i = s.settledInHalt i c := by
  have ho' : s.entries[i.val].owner = some c := ho
  rw [← settleHalting_lowerLive i h]
  simp [State.dropEntry, ho', entryFreed_eq, State.reportFreed]

/-- A completion, by its owner's state (R83 to R86, R90, R110). -/
theorem completeEntry_eq {s : State} {i : Fin 16} {c : Fin 8} (ho : s.entries[i].owner = some c) :
    s.completeEntry i = s.entryCompleted i c := by
  have ho' : s.entries[i.val].owner = some c := ho
  cases hst : s.channels[c].state
  case halting =>
    have h' : s.channels[c.val].state = .halting := hst
    simp only [State.completeEntry, State.entryCompleted]
    simp [h', entryFreed_eq, State.reportComplete, settleHalting_lowerLive i hst, ho']
  case finishing =>
    have h' : s.channels[c.val].state = .finishing := hst
    by_cases hl : 1 < s.channels[c.val].live
    · have h2 : ¬ s.channels[c.val].live - 1 = 0 := by omega
      simp [State.completeEntry, ho', State.entryCompleted, h', hl, h2, entryFreed_eq, State.reportComplete, State.lowerLive]
    · have h2 : s.channels[c.val].live - 1 = 0 := by omega
      by_cases hsg : s.channels[c.val].signal.isSome = true
      · simp [State.completeEntry, ho', State.entryCompleted, h', hl, h2, hsg, entryFreed_eq, State.reportComplete]
      · by_cases hr : s.channels[c.val].reload = true <;>
        simp [State.completeEntry, ho', State.entryCompleted, h', hl, h2, hsg, hr, entryFreed_eq, State.reportComplete, State.lowerLive,
          State.endOfPass, passEnded, State.setChannel, State.post]
  case signalling =>
    have h' : s.channels[c.val].state = .signalling := hst
    by_cases hr : s.channels[c.val].reload = true <;>
        simp [State.completeEntry, ho', State.entryCompleted, h', hr, entryFreed_eq, State.reportComplete, State.lowerLive,
          State.endOfPass, passEnded, State.setChannel, State.post]
  all_goals
    have h' := hst
    simp only [Fin.getElem_fin] at h'
    simp [State.completeEntry, ho', State.entryCompleted, h', entryFreed_eq, State.reportComplete, State.lowerLive]

/-- What the halt of channel `c` at the failure of entry `i` does with each entry. -/
theorem haltRelease_freed (s : State) (i : Fin 16) (c : Fin 8) :
    haltRelease (s.entryFreed i) c = fun k =>
      if withdrawn s i c k then (if contendingWith s k then .releasing else .free) else .keep := by
  funext k
  by_cases hk : k = i
  · subst hk
    simp [haltRelease, withdrawn, Entry.freeWith]
  · have hv : i.val ≠ k.val := fun h => hk (Fin.ext h.symm)
    have hj : jobListed (s.entryFreed i) k = s.engine.requester.any fun j => j.owner == .entry k := by
      simp [jobListed]
    have hc : ∀ h : s.entries[k.val].state = .queued, inHandContending (s.entryFreed i) k = contendingWith s k := by
      intro h
      simp only [inHandContending, contendingWith, entryFreed_line]
      cases s.line.hand <;> simp [h]
    by_cases ho : s.entries[k.val].owner = some c
    · cases hs : s.entries[k.val].state <;>
        simp [haltRelease, withdrawn, hk, ho, hs, hj, hc, Vector.getElem_set_ne _ _ hv, contendingWith]
    · simp [haltRelease, withdrawn, hk, ho, Vector.getElem_set_ne _ _ hv]

/-- The first final failure of a pass. -/
theorem failEntry_first {s : State} {i : Fin 16} {c : Fin 8} (code : FaultCode) (ho : s.entries[i].owner = some c)
    (h : s.channels[c].state = .running ∨ s.channels[c].state = .finishing ∨ s.channels[c].state = .signalling) :
    s.failEntry i code = s.firstFailure i c code := by
  have ho' : s.entries[i.val].owner = some c := ho
  have hr : s.failEntry i code = ((s.entryFreed i).haltChannel c code s.entries[i].remoteOffset
      (decide (s.entries[i].kind = .signal))).settleHalting c := by
    rcases h with h | h | h <;>
    · have h' := h
      simp only [Fin.getElem_fin] at h'
      simp [State.failEntry, ho', entryFreed_eq, State.reportFailure, h']
  have hn : releasedCount (haltRelease (s.entryFreed i) c) = (List.finRange 16).countP (withdrawn s i c) := by
    rw [haltRelease_freed]
    unfold releasedCount
    congr 1
    funext k
    by_cases hw : withdrawn s i c k = true <;> by_cases hc : contendingWith s k = true <;> simp [hw, hc]
  have he : (s.entryFreed i).releaseEntries (haltRelease (s.entryFreed i) c) = { s.entryFreed i with
      entries := Vector.ofFn fun k =>
        if withdrawn s i c k then
          if contendingWith s k then { s.entries[k] with state := .releasing, owner := none, timer := .stopped }
          else Entry.freeWith s.entries[k].epoch
        else (s.entryFreed i).entries[k]
      requestQueue := s.requestQueue.filter fun k => !withdrawn s i c k
      engine := { s.engine with requester := s.engine.requester.filter (Job.ofNone (withdrawn s i c)) }
      buffers := (s.entryFreed i).buffers.map (Buffer.without fun k => withdrawn s i c k && !contendingWith s k) } := by
    rw [haltRelease_freed]
    unfold State.releaseEntries
    congr 1
    · congr 1
      funext k
      by_cases hw : withdrawn s i c k = true
      · have hk : ¬ i.val = k.val := by
          rintro hv
          have : k = i := Fin.ext hv.symm
          subst this
          simp [withdrawn] at hw
        by_cases hc : contendingWith s k = true <;>
          simp [hw, hc, Entry.afterRelease, Entry.released, Entry.freed, Vector.getElem_set_ne _ _ hk]
      · simp [hw, Entry.afterRelease]
    · rw [entryFreed_requestQueue]
      congr 1
      funext k
      by_cases hw : withdrawn s i c k = true <;> by_cases hc : contendingWith s k = true <;> simp [hw, hc]
    · congr 1
      funext b
      unfold Buffer.afterRelease Buffer.without
      cases hb : b.owner with
      | none => rfl
      | some o =>
        cases o with
        | operation k => rfl
        | entry k => by_cases hw : withdrawn s i c k = true <;> by_cases hc : contendingWith s k = true <;> simp [hw, hc]
    · rw [entryFreed_engine]
      refine congrArg (fun l => { s.engine with requester := List.filter l s.engine.requester }) ?_
      funext j
      unfold Job.keptBy Job.ofNone
      cases hb : j.owner with
      | operation k => rfl
      | loader => rfl
      | entry k => by_cases hw : withdrawn s i c k = true <;> by_cases hc : contendingWith s k = true <;> simp [hw, hc]
  rw [hr]
  unfold State.haltChannel State.firstFailure
  rw [hn, he, entryFreed_channels]
  by_cases hl : s.channels[c.val].live - 1 - (List.finRange 16).countP (withdrawn s i c) = 0
  · simp [State.settleHalting, State.setChannel, hl, State.post]
  · simp [State.settleHalting, State.setChannel, hl]

/-! ### The released engine under the owner's part -/

@[simp] theorem releaseEngine_returnBuffer (s : State) (b : Option (Fin 24)) :
    s.releaseEngine.returnBuffer b = (s.returnBuffer b).releaseEngine := by
  cases b <;> rfl
@[simp] theorem releaseEngine_entryFreed (s : State) (i : Fin 16) :
    s.releaseEngine.entryFreed i = (s.entryFreed i).releaseEngine := by
  show (s.releaseEngine.returnBuffer s.entries[i].buffer).setEntry i (Entry.freeWith s.entries[i].epoch) = _
  rw [releaseEngine_returnBuffer]
  rfl
@[simp] theorem releaseEngine_settledInHalt (s : State) (i : Fin 16) (c : Fin 8) :
    s.releaseEngine.settledInHalt i c = (s.settledInHalt i c).releaseEngine := by
  simp only [State.settledInHalt, releaseEngine_entryFreed, apply_ite State.releaseEngine]
  rfl
@[simp] theorem releaseEngine_entryCompleted (s : State) (i : Fin 16) (c : Fin 8) :
    s.releaseEngine.entryCompleted i c = (s.entryCompleted i c).releaseEngine := by
  have hc : s.releaseEngine.channels = s.channels := rfl
  simp only [State.entryCompleted, releaseEngine_entryFreed, releaseEngine_settledInHalt, hc]
  cases s.channels[c].state <;> first
    | rfl
    | (simp only [apply_ite State.releaseEngine]; rfl)
@[simp] theorem releaseEngine_firstFailure (s : State) (i : Fin 16) (c : Fin 8) (code : FaultCode) :
    s.releaseEngine.firstFailure i c code = (s.firstFailure i c code).releaseEngine := by
  have hw : withdrawn s.releaseEngine i c = withdrawn s i c := rfl
  have hc : contendingWith s.releaseEngine = contendingWith s := rfl
  simp only [State.firstFailure, releaseEngine_entryFreed, hw, hc, apply_ite State.releaseEngine]
  rfl

/-- The end of a staging read or landing write whose owner channel's part is `t` lets the job go after it. -/
theorem endJob_entry {s t : State} {i : Fin 16} {faulted : Bool}
    (h : s.releaseEngine.entryJobEnd i faulted = t.releaseEngine) : s.endJob (.entry i) faulted = t.jobLetGo := by
  rw [← releaseEngine_selectJob, ← h]
  rfl
/-! ### Execution ends -/

/-- The fall of the in-use count and the drain. -/
theorem endUse_eq (s : State) (i : Fin 32) : s.endUse i = { s with
    windows := s.windows.set i (drained i s.windows[i]).1
    notices := (drained i s.windows[i]).2.foldl NoticeQueue.post s.notices } := by
  by_cases h : 1 < s.windows[i.val].inUse
  · simp [State.endUse, drained, h, State.setWindow]
  · cases hs : s.windows[i.val].state
    case parked =>
      by_cases hq : s.windows[i.val].quietWanted = true
      · simp [State.endUse, drained, h, hs, hq, State.setWindow, State.post]
      · simp [State.endUse, drained, h, hs, hq, State.setWindow]
    case closing =>
      simp [State.endUse, drained, h, hs, State.setWindow, State.post, freeWindow, WindowEntry.cleared]
    all_goals simp [State.endUse, drained, h, hs, State.setWindow]

theorem serving_iff (st : WindowState) : st.serving = true ↔ st = .opened ∨ st = .parked := by
  cases st <;> simp [WindowState.serving]

/-- The whole execution end. -/
theorem endExecution_eq (s : State) (op : Operation) (i : Fin 32) (faulted : Bool) (h : op.window = some i) :
    s.endExecution op faulted = { s with
      windows := s.windows.set i (executionEnd i s.windows[i] op.mailboxSlot
        (if faulted then [.localFault i (op.localAddress.getD 0) op.mailboxSlot] else [])).1
      notices := (executionEnd i s.windows[i] op.mailboxSlot
        (if faulted then [.localFault i (op.localAddress.getD 0) op.mailboxSlot] else [])).2.foldl
          NoticeQueue.post s.notices } := by
  cases hm : op.mailboxSlot with
  | none =>
    cases faulted <;> simp [State.endExecution, h, hm, executionEnd, endUse_eq, State.post]
  | some p =>
    by_cases hc : s.windows[i.val].committed = 0 ∧ s.windows[i.val].state.serving = true
    · have hs := hc.2
      rw [serving_iff] at hs
      cases faulted <;>
        simp [State.endExecution, h, hm, executionEnd, endUse_eq, State.post, State.commitSlot, hc, hs, WindowEntry.committedOne,
          State.setWindow]
    · have hs : ¬ (s.windows[i.val].committed = 0 ∧ (s.windows[i.val].state = .opened ∨ s.windows[i.val].state = .parked)) := by
        rw [← serving_iff]; exact hc
      cases faulted <;>
        simp [State.endExecution, h, hm, executionEnd, endUse_eq, State.post, State.commitSlot, hc, hs, WindowEntry.committedOne,
          State.setWindow]

/-! ### An answer: the entry off the Request Queue, and the receipt beside its end -/

theorem setLine_entryFreed (s : State) (l : Line) (i : Fin 16) : (s.setLine l).entryFreed i = (s.entryFreed i).setLine l := by
  unfold State.entryFreed
  show ((s.setLine l).returnBuffer s.entries[i].buffer).setEntry i (Entry.freeWith s.entries[i].epoch) = _
  cases s.entries[i].buffer <;> rfl
theorem setLine_settledInHalt (s : State) (l : Line) (i : Fin 16) (c : Fin 8) :
    (s.setLine l).settledInHalt i c = (s.settledInHalt i c).setLine l := by
  simp only [State.settledInHalt, setLine_entryFreed, apply_ite fun t : State => t.setLine l]
  rfl
theorem setLine_entryCompleted (s : State) (l : Line) (i : Fin 16) (c : Fin 8) :
    (s.setLine l).entryCompleted i c = (s.entryCompleted i c).setLine l := by
  have hc : (s.setLine l).channels = s.channels := rfl
  simp only [State.entryCompleted, setLine_entryFreed, setLine_settledInHalt, hc]
  cases s.channels[c].state <;> first
    | rfl
    | (simp only [apply_ite fun t : State => t.setLine l]; rfl)
/-- The first failure looks at the line for its frame in hand alone (R134). -/
theorem setLine_firstFailure (s : State) (l : Line) (i : Fin 16) (c : Fin 8) (code : FaultCode)
    (hs : l.state = s.line.state) (hh : l.hand = s.line.hand) :
    (s.setLine l).firstFailure i c code = (s.firstFailure i c code).setLine l := by
  have hw : withdrawn (s.setLine l) i c = withdrawn s i c := rfl
  have hc : contendingWith (s.setLine l) = contendingWith s := by
    funext k; simp [contendingWith, State.setLine, hs, hh]
  simp only [State.firstFailure, setLine_entryFreed, hw, hc, apply_ite fun t : State => t.setLine l]
  rfl

/-- Entry `i` off the Request Queue. -/
def unlisted (s : State) (i : Fin 16) : State := { s with requestQueue := s.requestQueue.filter fun k => k != i }

theorem unqueue_entryFreed (s : State) (i : Fin 16) : (s.unqueue i).entryFreed i = (unlisted s i).entryFreed i := by
  unfold State.entryFreed
  have h : (s.unqueue i).entries[i].buffer = s.entries[i].buffer := by simp [State.unqueue]
  have h2 : (s.unqueue i).entries[i].epoch = s.entries[i].epoch := by simp [State.unqueue]
  have h3 : (unlisted s i).entries = s.entries := rfl
  rw [h, h2, h3]
  cases s.entries[i].buffer <;> simp [State.returnBuffer, State.setEntry, State.unqueue, unlisted, State.setBuffer]
theorem unqueue_settledInHalt (s : State) (i : Fin 16) (c : Fin 8) :
    (s.unqueue i).settledInHalt i c = (unlisted s i).settledInHalt i c := by
  unfold State.settledInHalt; rw [unqueue_entryFreed]; rfl
theorem unqueue_entryCompleted (s : State) (i : Fin 16) (c : Fin 8) :
    (s.unqueue i).entryCompleted i c = (unlisted s i).entryCompleted i c := by
  unfold State.entryCompleted; rw [unqueue_entryFreed, unqueue_settledInHalt]; rfl
theorem unqueue_firstFailure (s : State) (i : Fin 16) (c : Fin 8) (code : FaultCode) :
    (s.unqueue i).firstFailure i c code = (unlisted s i).firstFailure i c code := by
  have hw : withdrawn (s.unqueue i) i c = withdrawn (unlisted s i) i c := by
    funext k
    by_cases hk : k = i
    · subst hk; simp [withdrawn]
    · have hv : i.val ≠ k.val := fun h => hk (Fin.ext h.symm)
      simp [withdrawn, State.unqueue, unlisted, Vector.getElem_set_ne _ _ hv]
  have hc : ∀ k, contendingWith (s.unqueue i) k = contendingWith (unlisted s i) k := by
    intro k
    by_cases hk : k = i
    · subst hk; simp [contendingWith, State.unqueue, unlisted]
    · have hv : i.val ≠ k.val := fun h => hk (Fin.ext h.symm)
      simp [contendingWith, State.unqueue, unlisted, Vector.getElem_set_ne _ _ hv]
  have hc' : contendingWith (s.unqueue i) = contendingWith (unlisted s i) := funext hc
  have hoff : (s.unqueue i).entries[i].remoteOffset = (unlisted s i).entries[i].remoteOffset := by simp [State.unqueue, unlisted]
  have hkind : (s.unqueue i).entries[i].kind = (unlisted s i).entries[i].kind := by simp [State.unqueue, unlisted]
  have hent : (fun k : Fin 16 =>
      if withdrawn (unlisted s i) i c k then
        if contendingWith (unlisted s i) k then { (s.unqueue i).entries[k] with state := .releasing, owner := none, timer := .stopped }
        else Entry.freeWith (s.unqueue i).entries[k].epoch
      else ((unlisted s i).entryFreed i).entries[k]) = (fun k : Fin 16 =>
      if withdrawn (unlisted s i) i c k then
        if contendingWith (unlisted s i) k then { (unlisted s i).entries[k] with state := .releasing, owner := none, timer := .stopped }
        else Entry.freeWith (unlisted s i).entries[k].epoch
      else ((unlisted s i).entryFreed i).entries[k]) := by
    funext k
    by_cases hk : k = i
    · subst hk; simp [withdrawn]
    · have hv : i.val ≠ k.val := fun h => hk (Fin.ext h.symm)
      have e : (s.unqueue i).entries[k] = (unlisted s i).entries[k] := by
        simp [State.unqueue, unlisted, Vector.getElem_set_ne _ _ hv]
      rw [e]
  unfold State.firstFailure
  simp only [hw, hc', hoff, hkind, unqueue_entryFreed, hent]
  rfl

end Sys2Proof.Machine
end

