-- ==== Sys2Proof/Laws/Memory.lean ====
section
/-! SUPPORT. Local memory: what a byte reads as after a write, that every write keeps the canonical form, and which
bytes a run of writes leaves alone. -/

namespace Sys2Proof.Machine
namespace Memory

/-- The canonical form from a higher bound is one from a lower bound. -/
theorem wfFrom_mono {m : Memory} {a b : Nat} (hab : a ≤ b) (h : wfFrom b m = true) : wfFrom a m = true := by
  cases m with
  | nil => rfl
  | cons c rest =>
    simp only [wfFrom, Bool.and_eq_true, decide_eq_true_eq] at h ⊢
    exact ⟨⟨⟨Nat.le_trans hab h.1.1.1, h.1.1.2⟩, h.1.2⟩, h.2⟩

/-- Below every cell a canonical memory reads the fill. -/
theorem read_of_lt {m : Memory} {low a : Nat} (h : wfFrom low m = true) (ha : a < low) :
    read m a = Config.memoryFill := by
  induction m generalizing low with
  | nil => rfl
  | cons c rest ih =>
    simp only [wfFrom, Bool.and_eq_true, decide_eq_true_eq] at h
    have hne : c.1 ≠ a := by omega
    simp only [read, hne, if_false]
    exact ih h.2 (by omega)

/-- What a byte reads as after one write. -/
theorem read_write {m : Memory} {low : Nat} (h : wfFrom low m = true) (a : Nat) (v : Byte) (b : Nat) :
    read (write m a v) b = if b = a then v else read m b := by
  induction m generalizing low with
  | nil =>
    by_cases hv : v = Config.memoryFill <;> by_cases hb : b = a
    · simp [write, read, hv, hb]
    · simp [write, read, hv, hb]
    · simp [write, read, hv, hb]
    · have : a ≠ b := fun e => hb e.symm
      simp [write, read, hv, hb, this]
  | cons c rest ih =>
    simp only [wfFrom, Bool.and_eq_true, decide_eq_true_eq] at h
    obtain ⟨⟨⟨_, _⟩, _⟩, hrest⟩ := h
    rcases Nat.lt_trichotomy a c.1 with hlt | heq | hgt
    · have hca : ¬ c.1 = a := by omega
      have hread : read rest a = Config.memoryFill := read_of_lt hrest (by omega)
      by_cases hv : v = Config.memoryFill <;> by_cases hb : b = a
      · subst hb; simp [write, read, hlt, hv, hca, hread]
      · simp [write, hlt, hv, hb]
      · subst hb; simp [write, read, hlt, hv]
      · have : a ≠ b := fun e => hb e.symm
        simp [write, read, hlt, hv, hb, this]
    · subst heq
      have hread : read rest c.1 = Config.memoryFill := read_of_lt hrest (by omega)
      by_cases hv : v = Config.memoryFill
      · by_cases hb : b = c.1
        · subst hb; simp [write, hv, hread]
        · have h1 : ¬ c.1 = b := fun e => hb e.symm
          simp [write, read, hv, hb, h1]
      · by_cases hb : b = c.1
        · subst hb; simp [write, read, hv]
        · have h1 : ¬ c.1 = b := fun e => hb e.symm
          simp [write, read, hv, hb, h1]
    · have hla : ¬ a < c.1 := by omega
      have hne : ¬ a = c.1 := by omega
      simp only [write, hla, hne, if_false, read]
      by_cases hb : c.1 = b
      · have : ¬ b = a := by omega
        simp [hb, this]
      · simp only [hb, if_false]
        exact ih hrest

/-- A write at or above the bound, inside the address space, keeps the canonical form. -/
theorem write_wfFrom {m : Memory} {low : Nat} (h : wfFrom low m = true) {a : Nat} (hla : low ≤ a)
    (ha : a < Config.memorySize) (v : Byte) : wfFrom low (write m a v) = true := by
  induction m generalizing low with
  | nil =>
    by_cases hv : v = Config.memoryFill
    · simp [write, hv, wfFrom]
    · simp [write, hv, wfFrom, hla, ha]
  | cons c rest ih =>
    have h0 := h
    simp only [wfFrom, Bool.and_eq_true, decide_eq_true_eq] at h
    obtain ⟨⟨⟨hlc, hcm⟩, hcv⟩, hrest⟩ := h
    rcases Nat.lt_trichotomy a c.1 with hlt | heq | hgt
    · by_cases hv : v = Config.memoryFill
      · simpa [write, hlt, hv] using h0
      · have : wfFrom (a + 1) (c :: rest) = true := by
          simp only [wfFrom, Bool.and_eq_true, decide_eq_true_eq]
          exact ⟨⟨⟨by omega, hcm⟩, hcv⟩, hrest⟩
        simp only [write, hlt, hv, if_true, if_false]
        simp only [wfFrom, Bool.and_eq_true, decide_eq_true_eq] at this ⊢
        exact ⟨⟨⟨hla, ha⟩, hv⟩, this⟩
    · subst heq
      have hnl : ¬ c.1 < c.1 := Nat.lt_irrefl _
      by_cases hv : v = Config.memoryFill
      · simp only [write, hnl, if_false, if_true, hv]
        exact wfFrom_mono (by omega) hrest
      · simp only [write, hnl, if_false, if_true, hv]
        simp only [wfFrom, Bool.and_eq_true, decide_eq_true_eq]
        exact ⟨⟨⟨hlc, hcm⟩, hv⟩, hrest⟩
    · have hnl : ¬ a < c.1 := by omega
      have hne : ¬ a = c.1 := by omega
      simp only [write, hnl, hne, if_false, wfFrom, Bool.and_eq_true, decide_eq_true_eq]
      exact ⟨⟨⟨hlc, hcm⟩, hcv⟩, ih hrest (by omega)⟩

/-- A write inside the address space keeps the canonical form. -/
theorem write_wf {m : Memory} (h : wf m = true) {a : Nat} (ha : a < Config.memorySize) (v : Byte) :
    wf (write m a v) = true :=
  write_wfFrom h (Nat.zero_le a) ha v

/-- Writes inside the address space keep the canonical form. -/
theorem writeCells_wf {cells : List Host.Cell} {m : Memory} (h : wf m = true)
    (hc : ∀ c ∈ cells, c.1 < Config.memorySize) : wf (writeCells m cells) = true := by
  induction cells generalizing m with
  | nil => exact h
  | cons c rest ih =>
    exact ih (write_wf h (hc c List.mem_cons_self) c.2) fun d hd => hc d (List.mem_cons_of_mem _ hd)

/-- A byte that no write of a run addresses reads as before. -/
theorem read_writeCells_of_ne {cells : List Host.Cell} {m : Memory} (h : wf m = true)
    (hc : ∀ c ∈ cells, c.1 < Config.memorySize) {a : Nat} (ha : ∀ c ∈ cells, c.1 ≠ a) :
    read (writeCells m cells) a = read m a := by
  induction cells generalizing m with
  | nil => rfl
  | cons c rest ih =>
    have hstep := ih (m := write m c.1 c.2) (write_wf h (hc c List.mem_cons_self) c.2)
      (fun d hd => hc d (List.mem_cons_of_mem _ hd)) (fun d hd => ha d (List.mem_cons_of_mem _ hd))
    have hne : ¬ a = c.1 := fun e => ha c List.mem_cons_self e.symm
    calc read (writeCells m (c :: rest)) a = read (writeCells (write m c.1 c.2) rest) a := rfl
      _ = read (write m c.1 c.2) a := hstep
      _ = read m a := by rw [read_write (low := 0) h]; simp [hne]

/-- The last of the bytes stored at an address stands. -/
theorem read_writeCells_append {m : Memory} {cells : List Host.Cell} (h : wf m = true)
    (hc : ∀ c ∈ cells, c.1 < Config.memorySize) (d : Host.Cell) (a : Nat) :
    read (writeCells m (cells ++ [d])) a = if a = d.1 then d.2 else read (writeCells m cells) a := by
  have hw := writeCells_wf (cells := cells) h hc
  simp only [writeCells, List.foldl_append, List.foldl_cons, List.foldl_nil]
  exact read_write hw _ _ _

/-- Memory after a full reset is canonical. -/
theorem reset_wf : wf State.reset.mem = true := rfl

end Memory
end Sys2Proof.Machine
end

