-- ==== Sys2Proof/Laws/Engine.lean ====
section
/-! SUPPORT. The engine's shared operations: selecting and queueing jobs change the engine alone, a bus cycle changes
memory, the job's buffer or the loader's holding alone, and every cycle keeps memory canonical. -/

namespace Sys2Proof.Machine

/-! ### Selection -/

/-- Starting a job changes the engine alone. -/
theorem startJob_eq (s : State) (j : Job) : ∃ e, s.startJob j = s.setEngine e := by
  unfold State.startJob
  split <;> exact ⟨_, rfl⟩

/-- The arbiter changes the engine alone. -/
theorem selectJob_eq (s : State) : ∃ e, s.selectJob = s.setEngine e := by
  unfold State.selectJob
  split
  · exact ⟨s.engine, rfl⟩
  · split
    · obtain ⟨e, h⟩ := startJob_eq (s.setEngine { s.engine with responder := _ }) _
      exact ⟨e, h⟩
    · obtain ⟨e, h⟩ := startJob_eq (s.setEngine { s.engine with requester := _ }) _
      exact ⟨e, h⟩
    · exact ⟨s.engine, rfl⟩

/-- Queueing a responder job changes the engine alone. -/
theorem queueResponder_eq (s : State) (j : Job) : ∃ e, s.queueResponder j = s.setEngine e := by
  obtain ⟨e, h⟩ := selectJob_eq (s.setEngine { s.engine with responder := s.engine.responder ++ [j] })
  exact ⟨e, h⟩

/-- Queueing a requester job changes the engine alone. -/
theorem queueRequester_eq (s : State) (j : Job) : ∃ e, s.queueRequester j = s.setEngine e := by
  obtain ⟨e, h⟩ := selectJob_eq (s.setEngine { s.engine with requester := s.engine.requester ++ [j] })
  exact ⟨e, h⟩

/-- With a job started the arbiter does nothing. -/
theorem selectJob_busy {s : State} {j : Job} (h : s.engine.job = some j) : s.selectJob = s := by
  simp [State.selectJob, h]

/-- With both lists empty the arbiter does nothing. -/
theorem selectJob_empty {s : State} (h1 : s.engine.responder = []) (h2 : s.engine.requester = []) :
    s.selectJob = s := by
  unfold State.selectJob
  split
  · rfl
  · simp [h1, h2]

/-! ### Cycles -/

/-- Every cell that a cycle stores has an address of the cycle. -/
theorem cycleCells_address {s : State} {j : Job} {c : Host.Cell} (h : c ∈ cycleCells s j) :
    c.1 ∈ j.cycleAddresses := by
  simp only [cycleCells, List.mem_map] at h
  obtain ⟨k, hk, rfl⟩ := h
  exact List.mem_map_of_mem hk

/-- A cycle inside the address space keeps memory canonical. -/
theorem moveCycle_wf {s : State} {j : Job} (h : Memory.wf s.mem = true)
    (ha : ∀ a ∈ j.cycleAddresses, a < Config.memorySize) : Memory.wf (s.moveCycle j).mem = true := by
  unfold State.moveCycle
  split
  · exact Memory.writeCells_wf h fun c hc => ha _ (cycleCells_address hc)
  · split
    · exact h
    · exact h

/-- A READ cycle leaves memory as it was. -/
theorem moveCycle_read_mem {s : State} {j : Job} (h : j.kind = .read) : (s.moveCycle j).mem = s.mem := by
  unfold State.moveCycle
  simp only [h]
  split <;> rfl

/-- A WRITE cycle leaves every byte outside its own addresses as it was. -/
theorem moveCycle_read_other {s : State} {j : Job} (h : Memory.wf s.mem = true)
    (ha : ∀ a ∈ j.cycleAddresses, a < Config.memorySize) {a : Nat} (hn : a ∉ j.cycleAddresses) :
    Memory.read (s.moveCycle j).mem a = Memory.read s.mem a := by
  cases hk : j.kind with
  | read => rw [moveCycle_read_mem hk]
  | write =>
    have hm : (s.moveCycle j).mem = Memory.writeCells s.mem (cycleCells s j) := by
      simp [State.moveCycle, hk]
    rw [hm]
    exact Memory.read_writeCells_of_ne h (fun c hc => ha _ (cycleCells_address hc))
      fun c hc e => hn (e ▸ cycleCells_address hc)

/-- A cycle changes memory, the buffers and the loader alone. -/
theorem moveCycle_eq (s : State) (j : Job) :
    ∃ m bs l, s.moveCycle j = { s with mem := m, buffers := bs, loader := l } := by
  unfold State.moveCycle
  split
  · exact ⟨_, s.buffers, s.loader, rfl⟩
  · split
    · exact ⟨s.mem, _, s.loader, rfl⟩
    · exact ⟨s.mem, s.buffers, _, rfl⟩

/-- The write cycle that a full reset cuts stays inside the address space. -/
theorem cutCycle_wf {s : State} (h : Memory.wf s.mem = true) : Memory.wf s.cutCycle.mem = true := by
  unfold State.cutCycle
  split
  · exact h
  · refine Memory.writeCells_wf h fun c hc => ?_
    simp only [cutCells, List.mem_map, List.mem_filter, decide_eq_true_eq] at hc
    obtain ⟨a, ⟨_, ha⟩, rfl⟩ := hc
    exact ha

end Sys2Proof.Machine
end

