-- ==== Sys2Proof/Laws/Frames.lean ====
section
/-! SUPPORT. The bits of a field read back, and what they came from: two lemmas for each reader of the receiver over what
the encoder sends. -/

namespace Sys2Proof

@[simp] theorem natBits_length (n x : Nat) : (natBits n x).length = n := by
  induction n with
  | zero => rfl
  | succ n ih => simp [natBits, ih]

@[simp] theorem sendBits_length {n : Nat} (v : BitVec n) : (sendBits v).length = n := natBits_length n v.toNat

/-- Reading on from an accumulated value. -/
theorem foldl_bits (bs : List Bool) (acc : Nat) :
    bs.foldl (fun acc b => 2 * acc + b.toNat) acc = acc * 2 ^ bs.length + bitsValue bs := by
  induction bs generalizing acc with
  | nil => simp [bitsValue]
  | cons b rest ih =>
    simp only [List.foldl_cons, List.length_cons, bitsValue]
    rw [ih, ih (2 * 0 + b.toNat)]
    ring

/-- The bits of a number spell it, modulo the width. -/
theorem bitsValue_natBits (n x : Nat) : bitsValue (natBits n x) = x % 2 ^ n := by
  induction n with
  | zero => simp [natBits, bitsValue, Nat.mod_one]
  | succ n ih =>
    have h := foldl_bits (natBits n x) (2 * 0 + (x.testBit n).toNat)
    simp only [bitsValue, natBits, List.foldl_cons] at h ⊢
    rw [h, natBits_length]
    change _ + bitsValue (natBits n x) = _
    have hb : (x.testBit n).toNat = x / 2 ^ n % 2 := by
      rw [Nat.testBit_eq_decide_div_mod_eq]
      rcases Nat.mod_two_eq_zero_or_one (x / 2 ^ n) with e | e <;> simp [e]
    rw [ih, hb, Nat.pow_succ, Nat.mod_mul]
    simp only [Nat.mul_zero, Nat.zero_add]
    ring

/-- A field read back off the front of what follows it. -/
@[simp] theorem takeField_sendBits {n : Nat} (v : BitVec n) (rest : List Bool) :
    takeField n (sendBits v ++ rest) = some (v, rest) := by
  have hl : ¬ (sendBits v ++ rest).length < n := by simp
  have h1 : (sendBits v ++ rest).take n = sendBits v := by
    rw [List.take_append_of_le_length (by simp)]
    exact List.take_of_length_le (by simp)
  have h2 : (sendBits v ++ rest).drop n = rest := by
    have := List.drop_left (l₁ := sendBits v) (l₂ := rest)
    rwa [sendBits_length] at this
  simp only [takeField, hl, if_false, h1, h2]
  have : BitVec.ofNat n (bitsValue (sendBits v)) = v := by
    rw [sendBits, bitsValue_natBits]
    apply BitVec.eq_of_toNat_eq
    simp [Nat.mod_eq_of_lt v.isLt]
  rw [this]

/-- A payload read back off the front of what follows it. -/
@[simp] theorem takeBytes_sendBytes (pay : List Byte) (rest : List Bool) :
    takeBytes pay.length (sendBytes pay ++ rest) = some (pay, rest) := by
  induction pay with
  | nil => rfl
  | cons b more ih => simp [sendBytes, takeBytes, List.append_assoc, ih]

/-- A tag read back. -/
@[simp] theorem takeTag_bits (t : Tag) (rest : List Bool) : takeTag (t.bits ++ rest) = some (t, rest) := by
  simp [takeTag, Tag.bits, List.append_assoc]

/-- A claim word read back. -/
@[simp] theorem takeClaim_bits (c : Claim) (rest : List Bool) : takeClaim (c.bits ++ rest) = some (c, rest) := by
  have h1 : ∀ r : List Bool, takeField 1 (c.request :: r) = some (BitVec.ofBool c.request, r) := by
    intro r
    cases c.request <;> simp [takeField, bitsValue]
  have h2 : (BitVec.ofBool c.request == 1#1) = c.request := by cases c.request <;> rfl
  simp [takeClaim, Claim.bits, h1, h2, List.append_assoc]

/-- The bits that driven data conditions carry. -/
theorem condBits_ofBit (bs : List Bool) : condBits (bs.map LineCond.ofBit) = some bs := by
  induction bs with
  | nil => rfl
  | cons b rest ih => cases b <;> simp [condBits, LineCond.ofBit, LineCond.toBit, ih]

/-! ### What a reader read -/

/-- The bits of a number, most significant first. -/
theorem natBits_eq (n x : Nat) : natBits n x = (List.range n).map fun k => x.testBit (n - 1 - k) := by
  induction n with
  | zero => rfl
  | succ n ih =>
    rw [natBits, ih, List.range_succ_eq_map]
    simp only [List.map_cons, List.map_map]
    congr 1
    apply List.map_congr_left
    intro k hk
    simp only [Function.comp, Nat.add_sub_cancel]
    congr 1
    omega

/-- A field goes most significant bit first (R122). -/
theorem sendBits_eq {n : Nat} (v : BitVec n) : sendBits v = Machine.msbFirst v := by
  rw [sendBits, natBits_eq, Machine.msbFirst]
  apply List.map_congr_left
  intro k hk
  have : k < n := List.mem_range.mp hk
  simp [BitVec.getMsbD, BitVec.testBit_toNat, this]

/-- A payload goes byte by byte, each most significant bit first (R122). -/
theorem sendBytes_eq (pay : List Byte) : sendBytes pay = pay.flatMap Machine.msbFirst := by
  induction pay with
  | nil => rfl
  | cons b rest ih => simp [sendBytes, ih, sendBits_eq]

/-- One more bit enters the register (R194). -/
theorem crc_append (bs : List Bool) (b : Bool) : crc (bs ++ [b]) = crcStep (crc bs) b := by simp [crc]

/-- The first bit of a run weighs the most. -/
theorem bitsValue_cons (b : Bool) (rest : List Bool) :
    bitsValue (b :: rest) = b.toNat * 2 ^ rest.length + bitsValue rest := by
  have h := foldl_bits rest (2 * 0 + b.toNat)
  simp only [bitsValue, List.foldl_cons] at h ⊢
  rw [h]
  simp

/-- A run of bits spells a number of its width. -/
theorem bitsValue_lt (bs : List Bool) : bitsValue bs < 2 ^ bs.length := by
  induction bs with
  | nil => simp [bitsValue]
  | cons b rest ih =>
    rw [bitsValue_cons, List.length_cons, Nat.pow_succ]
    cases b <;> simp <;> omega

/-- Two runs of one length that spell one number are one run. -/
theorem bitsValue_inj : ∀ {as bs : List Bool}, as.length = bs.length → bitsValue as = bitsValue bs → as = bs := by
  intro as
  induction as with
  | nil => intro bs h _; exact (List.length_eq_zero_iff.mp h.symm).symm
  | cons a as ih =>
    rintro (_ | ⟨b, bs⟩) hl hv
    · cases hl
    · have hl' : as.length = bs.length := by simpa using hl
      rw [bitsValue_cons, bitsValue_cons, hl'] at hv
      have h1 := bitsValue_lt as
      have h2 := bitsValue_lt bs
      rw [hl'] at h1
      have : a = b := by cases a <;> cases b <;> simp at hv ⊢ <;> omega
      subst this
      rw [ih hl' (by omega)]

/-- What a field read back came from. -/
theorem takeField_eq_some {n : Nat} {bs rest : List Bool} {v : BitVec n} :
    takeField n bs = some (v, rest) ↔ bs = sendBits v ++ rest := by
  constructor
  · intro h
    unfold takeField at h
    split at h
    · cases h
    · rename_i hl
      simp only [Option.some.injEq, Prod.mk.injEq] at h
      obtain ⟨rfl, rfl⟩ := h
      have hlen : (bs.take n).length = n := by simp; omega
      have : sendBits (BitVec.ofNat n (bitsValue (bs.take n))) = bs.take n := by
        apply bitsValue_inj
        · simp; omega
        · rw [sendBits, bitsValue_natBits]
          have := bitsValue_lt (bs.take n)
          rw [hlen] at this
          simp [Nat.mod_eq_of_lt this]
      rw [this, List.take_append_drop]
  · rintro rfl; simp

/-- What a payload read back came from. -/
theorem takeBytes_eq_some {k : Nat} {bs rest : List Bool} {pay : List Byte} :
    takeBytes k bs = some (pay, rest) ↔ pay.length = k ∧ bs = sendBytes pay ++ rest := by
  constructor
  · induction k generalizing bs pay with
    | zero => simp only [takeBytes, Option.some.injEq, Prod.mk.injEq]; rintro ⟨rfl, rfl⟩; exact ⟨rfl, rfl⟩
    | succ k ih =>
      unfold takeBytes
      split
      · simp
      · rename_i b r hb
        split
        · simp
        · rename_i more last hm
          simp only [Option.some.injEq, Prod.mk.injEq]
          rintro ⟨rfl, rfl⟩
          obtain ⟨rfl, rfl⟩ := ih hm
          rw [takeField_eq_some] at hb
          exact ⟨rfl, by simp [hb, sendBytes, List.append_assoc]⟩
  · rintro ⟨rfl, rfl⟩; simp

/-- What a tag read back came from. -/
theorem takeTag_eq_some {bs rest : List Bool} {t : Tag} : takeTag bs = some (t, rest) ↔ bs = t.bits ++ rest := by
  constructor
  · unfold takeTag
    split
    · simp
    · rename_i e r he
      split
      · simp
      · rename_i p r' hp
        simp only [Option.some.injEq, Prod.mk.injEq]
        rintro ⟨rfl, rfl⟩
        rw [takeField_eq_some] at he hp
        simp [he, hp, Tag.bits, List.append_assoc]
  · rintro rfl; simp

/-- What a claim word read back came from. -/
theorem takeClaim_eq_some {bs rest : List Bool} {c : Claim} : takeClaim bs = some (c, rest) ↔ bs = c.bits ++ rest := by
  constructor
  · unfold takeClaim
    split
    · simp
    · rename_i k r hk
      split
      · simp
      · rename_i p r1 hp
        split
        · simp
        · rename_i q r2 hq
          simp only [Option.some.injEq, Prod.mk.injEq]
          rintro ⟨rfl, rfl⟩
          rw [takeField_eq_some] at hk hp hq
          have : sendBits k = [k == 1#1] := by
            have : ∀ k : BitVec 1, sendBits k = [k == 1#1] := by decide
            exact this k
          simp [hk, hp, hq, this, Claim.bits, List.append_assoc]
  · rintro rfl; simp

/-- The run of driven data conditions that carries given bits. -/
theorem condBits_eq_some {cs : List LineCond} {bs : List Bool} : condBits cs = some bs ↔ cs = bs.map LineCond.ofBit := by
  constructor
  · induction cs generalizing bs with
    | nil => simp [condBits]
    | cons c rest ih =>
      unfold condBits
      split
      · rename_i b more hb hm
        simp only [Option.some.injEq]
        rintro rfl
        rw [ih hm]
        cases c <;> simp_all [LineCond.toBit, LineCond.ofBit]
      · simp
  · rintro rfl; exact condBits_ofBit bs

/-! ### Where a frame ends -/

/-- A field of a frame whose bits have come, read in its place. -/
theorem condField_sendBits {n : Nat} (pre : List Bool) (v : BitVec n) (post : List LineCond) :
    condField (pre.map LineCond.ofBit ++ ((sendBits v).map LineCond.ofBit ++ post)) pre.length n = some v.toNat := by
  have hl : ¬ (pre.map LineCond.ofBit ++ ((sendBits v).map LineCond.ofBit ++ post)).length < pre.length + n := by
    simp
  have hd : (pre.map LineCond.ofBit ++ ((sendBits v).map LineCond.ofBit ++ post)).drop pre.length =
      (sendBits v).map LineCond.ofBit ++ post := by
    simp
  have ht : ((sendBits v).map LineCond.ofBit ++ post).take n = (sendBits v).map LineCond.ofBit := by
    simp
  rw [condField, if_neg hl, hd, ht, condBits_ofBit]
  simp [sendBits, bitsValue_natBits, Nat.mod_eq_of_lt v.isLt]

/-- The bit times of a field that was read carry data bits. -/
theorem condField_data {conds : List LineCond} {low width v : Nat} (h : condField conds low width = some v) (k : Nat)
    (hk : k < width) : ∃ b, conds[low + k]? = some (LineCond.ofBit b) := by
  unfold condField at h
  split at h
  · exact absurd h (by simp)
  · rename_i hl
    obtain ⟨bs, hb, -⟩ := Option.map_eq_some_iff.mp h
    have he := condBits_eq_some.mp hb
    have hlen : k < bs.length := by
      have := congrArg List.length he
      simp only [List.length_take, List.length_drop, List.length_map] at this
      omega
    refine ⟨bs[k], ?_⟩
    have := congrArg (fun l => l[k]?) he
    simpa [List.getElem?_take, hk, List.getElem?_drop, hlen] using this

/-- A field in its place among the bits of a frame. -/
theorem condField_at {n : Nat} {conds : List LineCond} (pre : List Bool) (v : BitVec n) (post : List Bool)
    (rest : List LineCond) (low : Nat) (hl : pre.length = low)
    (h : conds = (pre ++ (sendBits v ++ post)).map LineCond.ofBit ++ rest) : condField conds low n = some v.toNat := by
  subst hl
  have := condField_sendBits pre v (post.map LineCond.ofBit ++ rest)
  rw [h]; simpa using this

/-- The extent of a frame as it was sent (R124, R193): it depends on the kind, the class and the length alone. -/
theorem frameExtent_bits (c : Claim) (body : FrameBody) (rest : List LineCond) :
    frameExtent ((Frame.mk c body).bits.map LineCond.ofBit ++ rest) =
      if c.request = body.isRequest then
        match body with
        | .put _ _ _ _ _ len _ => payloadExtent 79 len.toNat
        | .get .. => some 95
        | .signal .. => some 91
        | .data _ _ len _ => payloadExtent 42 len.toNat
        | .done .. => some 54
      else none := by
  have h0 : sendBits (BitVec.ofBool c.request) = [c.request] := by cases c.request <;> rfl
  have hc := condField_at (conds := (Frame.mk c body).bits.map LineCond.ofBit ++ rest) [] (BitVec.ofBool c.request)
    (sendBits c.rank ++ (sendBits c.sender ++ (sendBits body.kindCode ++ body.fieldBits))) rest 0 rfl
    (by simp [Frame.bits, Claim.bits, h0])
  have hk := condField_at (conds := (Frame.mk c body).bits.map LineCond.ofBit ++ rest) c.bits body.kindCode body.fieldBits rest 11
    (by simp [Claim.bits]) (by simp [Frame.bits])
  rw [frameExtent, hc, hk]
  cases body with
  | put d inc t w off len pay =>
    have hl := condField_at (conds := (Frame.mk c (.put d inc t w off len pay)).bits.map LineCond.ofBit ++ rest)
      (c.bits ++ (sendBits (1#3) ++ (sendBits d ++ (sendBits inc ++ (t.bits ++ (sendBits w ++ sendBits off)))))) len
      (sendBytes pay) rest 72 (by simp [Claim.bits, Tag.bits]) (by simp [Frame.bits, FrameBody.kindCode, FrameBody.fieldBits])
    rw [hl]
    cases c.request <;> simp [FrameBody.kindCode, FrameBody.isRequest]
  | get d inc t w off len => cases c.request <;> simp [FrameBody.kindCode, FrameBody.isRequest]
  | signal d inc t v => cases c.request <;> simp [FrameBody.kindCode, FrameBody.isRequest]
  | data d t len pay =>
    have hl := condField_at (conds := (Frame.mk c (.data d t len pay)).bits.map LineCond.ofBit ++ rest)
      (c.bits ++ (sendBits (4#3) ++ (sendBits d ++ t.bits))) len
      (sendBytes pay) rest 35 (by simp [Claim.bits, Tag.bits]) (by simp [Frame.bits, FrameBody.kindCode, FrameBody.fieldBits])
    rw [hl]
    cases c.request <;> simp [FrameBody.kindCode, FrameBody.isRequest]
  | done d t o => cases c.request <;> simp [FrameBody.kindCode, FrameBody.isRequest]

/-- Three undriven bit times after a driven one begin after it. -/
theorem quiet_cons_iff {c : LineCond} (hc : c ≠ .undriven) (run : Nat) (hr : run ≤ 2) (before tail rest : List LineCond)
    (h : List.replicate run .undriven ++ c :: rest = before ++ ([.undriven, .undriven, .undriven] ++ tail)) :
    ∃ more, before = List.replicate run .undriven ++ c :: more ∧ rest = more ++ ([.undriven, .undriven, .undriven] ++ tail) := by
  interval_cases run
  · rcases before with _ | ⟨a, before⟩
    · simp_all
    · simp at h ⊢; exact ⟨h.1.symm, h.2⟩
  · rcases before with _ | ⟨a, _ | ⟨b, before⟩⟩
    · simp_all
    · simp_all
    · simp at h ⊢; exact ⟨⟨h.1.symm, h.2.1.symm⟩, h.2.2⟩
  · rcases before with _ | ⟨a, _ | ⟨b, _ | ⟨d, before⟩⟩⟩
    · simp_all
    · simp_all
    · simp_all
    · simp at h ⊢; exact ⟨⟨h.1.symm, h.2.1.symm, h.2.2.1.symm⟩, h.2.2.2⟩

/-- The third consecutive undriven bit time, the first such one, after `run` undriven ones. -/
theorem endsQuiet_run (conds : List LineCond) : ∀ run, run ≤ 2 → (endsQuiet run conds = true ↔
    (∃ before, List.replicate run .undriven ++ conds = before ++ [.undriven, .undriven, .undriven]) ∧
      ∀ before after, after ≠ [] →
        List.replicate run .undriven ++ conds ≠ before ++ [.undriven, .undriven, .undriven] ++ after) := by
  induction conds with
  | nil =>
    intro run hr
    refine iff_of_false (by simp [endsQuiet]; omega) ?_
    rintro ⟨⟨before, hb⟩, -⟩
    have := congrArg List.length hb
    simp at this
    omega
  | cons c rest ih =>
    intro run hr
    have hstep : endsQuiet run (c :: rest) = endsQuiet (if c = .undriven then run + 1 else 0) rest := by
      have : (run != 3) = true := by simp; omega
      simp [endsQuiet, this]
    rw [hstep]
    by_cases hc : c = .undriven
    · subst hc
      simp only [if_true]
      have hrep : List.replicate run LineCond.undriven ++ .undriven :: rest = List.replicate (run + 1) .undriven ++ rest := by
        simp [List.replicate_succ']
      rw [hrep]
      by_cases h2 : run + 1 ≤ 2
      · exact ih (run + 1) h2
      · obtain rfl : run = 2 := by omega
        rcases rest with _ | ⟨d, rest⟩
        · refine iff_of_true rfl ⟨⟨[], rfl⟩, fun before after ha he => ha ?_⟩
          have := congrArg List.length he
          simp at this
          exact List.eq_nil_of_length_eq_zero (by omega)
        · refine iff_of_false (by simp [endsQuiet]) fun h => h.2 [] (d :: rest) (by simp) rfl
    · simp only [hc, if_false]
      rw [ih 0 (by omega)]
      simp only [List.replicate_zero, List.nil_append]
      constructor
      · rintro ⟨⟨before, hb⟩, hn⟩
        refine ⟨⟨List.replicate run .undriven ++ c :: before, by rw [hb]; simp⟩, fun b a ha he => ?_⟩
        rw [List.append_assoc] at he
        obtain ⟨more, -, hm⟩ := quiet_cons_iff hc run hr b a rest he
        exact hn more a ha (by simpa using hm)
      · rintro ⟨⟨before, hb⟩, hn⟩
        obtain ⟨more, -, hm⟩ := quiet_cons_iff hc run hr before [] rest (by simpa using hb)
        refine ⟨⟨more, by simpa using hm⟩, fun b a ha he => ?_⟩
        exact hn (List.replicate run .undriven ++ c :: b) a ha (by rw [he]; simp)

/-- A run that is the first to end in three undriven bit times. -/
theorem endsQuiet_iff {conds : List LineCond} : endsQuiet 0 conds = true ↔
    (∃ before, conds = before ++ [.undriven, .undriven, .undriven]) ∧
      ∀ before after, after ≠ [] → conds ≠ before ++ [.undriven, .undriven, .undriven] ++ after := by
  simpa using endsQuiet_run conds 0 (by omega)

/-- A frame went on to its acceptance slot (R124): bit time by bit time. -/
theorem reachedSlot_iff (conds : List LineCond) (n : Nat) : reachedSlot conds n = true ↔
    n < conds.length ∧ conds[n]? ≠ some .abortMark ∧
      ∀ k, k < n → conds[k]? ≠ some .undriven ∧ conds[k]? ≠ some .abortMark := by
  simp only [reachedSlot, Bool.and_eq_true, decide_eq_true_eq, List.all_eq_true, bne_iff_ne, and_assoc]
  refine and_congr_right fun hn => ?_
  rw [and_comm]
  refine and_congr_right fun _ => ?_
  constructor
  · intro h k hk
    have hk' : k < conds.length := by omega
    have := h conds[k] (List.mem_take_iff_getElem.mpr ⟨k, by omega, rfl⟩)
    simpa [hk'] using this
  · intro h c hc
    obtain ⟨k, hk, rfl⟩ := List.mem_take_iff_getElem.mp hc
    have hk' : k < conds.length := by omega
    have := h k (by omega)
    simpa [hk'] using this

end Sys2Proof
end

