-- ==== Sys2Proof/Laws/Line.lean ====
section
/-! SUPPORT. What the line carries, and one bit of a contention round. -/

namespace Sys2Proof

/-- Which station drives which does not matter (R121). -/
theorem LineCond.combine_comm (c d : LineCond) : LineCond.combine c d = LineCond.combine d c := by
  cases c <;> cases d <;> rfl

/-- An undriven bit time gives way (R121). -/
@[simp] theorem LineCond.combine_undriven (c : LineCond) : LineCond.combine c .undriven = c := by cases c <;> rfl

namespace Machine

/-- Data bits carry a 1 only where every station drives a 1 (R121). -/
theorem carried_ofBit (bits : List Bool) (h : bits ≠ []) : carried (bits.map LineCond.ofBit) = if bits.all id then LineCond.bit1 else .bit0 := by
  induction bits with
  | nil => exact absurd rfl h
  | cons b rest ih =>
    cases rest with
    | nil => cases b <;> rfl
    | cons c r =>
      have := ih (by simp)
      have e : carried ((b :: c :: r).map LineCond.ofBit) = LineCond.combine (LineCond.ofBit b) (carried ((c :: r).map LineCond.ofBit)) := rfl
      rw [e, this]
      cases b <;> cases h : (c :: r).all id <;> simp_all [LineCond.ofBit, LineCond.combine]
/-- One bit of a round: where some station drives a 0, those that drive a 1 have lost (R121, R135). -/
theorem contendBit_eq (claims : List (BitVec 11)) (bit : Nat) : contendBit claims bit =
  if claims.any fun c => !c.getLsbD bit then claims.filter fun c => !c.getLsbD bit else claims := by
  cases claims with
  | nil => rfl
  | cons c0 r =>
    have hm : (c0 :: r).map (claimDrive bit) = ((c0 :: r).map fun c => c.getLsbD bit).map LineCond.ofBit := by simp [claimDrive]
    unfold contendBit
    rw [hm, carried_ofBit _ (by simp)]
    by_cases h : (c0 :: r).any (fun c => !c.getLsbD bit) = true
    · have h' : ((c0 :: r).map fun c => c.getLsbD bit).all id = false := by
        rw [Bool.eq_false_iff]; intro h2
        simp only [List.all_eq_true, List.mem_map, List.any_eq_true] at h h2
        obtain ⟨x, hx, hb⟩ := h
        have := h2 _ ⟨x, hx, rfl⟩
        simp_all
      rw [h', h]
      simp only [if_true, Bool.false_eq_true, if_false]
      apply List.filter_congr
      intro x hx
      cases hb : x.getLsbD bit <;> simp [claimDrive, hb, LineCond.ofBit]
    · have h' : ((c0 :: r).map fun c => c.getLsbD bit).all id = true := by
        simp only [List.all_eq_true, List.mem_map]
        rintro _ ⟨x, hx, rfl⟩
        simp only [List.any_eq_true, not_exists, not_and] at h
        have := h x hx
        simpa using this
      rw [h', if_neg h]
      simp only [if_true]
      rw [List.filter_eq_self]
      intro x hx
      simp only [List.any_eq_true, not_exists, not_and] at h
      have := h x hx
      have hb : x.getLsbD bit = true := by simpa using this
      simp [claimDrive, hb, LineCond.ofBit]

end Machine

end Sys2Proof
end

