-- ==== Sys2Proof/Laws/Notices.lean ====
section
/-! SUPPORT. The Notice Queue: what a post, a pop and an enable change leave, and that each keeps the queue well
formed. -/

namespace Sys2Proof.Machine

/-- INT as every queue operation leaves it. -/
@[simp] theorem updateInt_int (q : NoticeQueue) : q.updateInt.int = (q.enable && !q.records.isEmpty) := rfl

@[simp] theorem updateInt_records (q : NoticeQueue) : q.updateInt.records = q.records := rfl

@[simp] theorem updateInt_enable (q : NoticeQueue) : q.updateInt.enable = q.enable := rfl

@[simp] theorem post_records (q : NoticeQueue) (n : Notice) : (q.post n).records = q.postRecords n := rfl

@[simp] theorem post_enable (q : NoticeQueue) (n : Notice) : (q.post n).enable = q.enable := rfl

/-- Without a marker and below 31 records a post joins the tail (R167). -/
theorem postRecords_room {q : NoticeQueue} (n : Notice) (hm : Notice.overflow ∉ q.records)
    (hl : q.records.length < 31) : q.postRecords n = q.records ++ [n] := by
  have h1 : q.hasMarker = false := by simp [NoticeQueue.hasMarker, hm]
  have h2 : q.records.length + 1 < Config.noticeRoom := by simp [Config.noticeRoom]; omega
  simp [NoticeQueue.postRecords, h1, h2]

/-- The marker has no second copy and stands last. -/
theorem marker_last {l : List Notice} (h : Notice.overflow ∉ l.dropLast) (hm : Notice.overflow ∈ l) :
    l = l.dropLast ++ [.overflow] := by
  have hne : l ≠ [] := by intro e; simp [e] at hm
  have hcut := List.dropLast_append_getLast hne
  have hlast : l.getLast hne = .overflow := by
    rw [← hcut] at hm
    simp only [List.mem_append, List.mem_singleton] at hm
    rcases hm with hm | hm
    · exact absurd hm h
    · exact hm.symm
  rw [hlast] at hcut
  exact hcut.symm

/-- A post of any notice but the marker keeps the queue well formed. -/
theorem post_noticesOk {q : NoticeQueue} (h : NoticesOk q) {n : Notice} (hn : n ≠ .overflow) :
    NoticesOk (q.post n) := by
  obtain ⟨hlen, hmark, hfull, _⟩ := h
  have hn' : Notice.overflow ≠ n := fun e => hn e.symm
  refine ⟨?_, ?_, ?_, rfl⟩ <;> simp only [post_records, NoticeQueue.postRecords]
  · split
    · split
      · rename_i hm hl
        simp only [Config.noticeRoom] at hl ⊢
        simp; omega
      · exact hlen
    · split
      · simp only [List.length_append, List.length_singleton]; omega
      · split
        · simp only [List.length_append, List.length_singleton]; omega
        · exact hlen
  · split
    · split
      · have hd : (q.records.dropLast ++ [n, Notice.overflow]).dropLast = q.records.dropLast ++ [n] := by
          simp
        rw [hd]; simp [hmark, hn']
      · exact hmark
    · rename_i hm
      have hm' : Notice.overflow ∉ q.records := by simpa [NoticeQueue.hasMarker] using hm
      split
      · rw [List.dropLast_concat]; exact hm'
      · split
        · rw [List.dropLast_concat]; exact hm'
        · exact hmark
  · split
    · rename_i hm
      have hm' : Notice.overflow ∈ q.records := by simpa [NoticeQueue.hasMarker] using hm
      split
      · intro _; simp
      · intro _; exact hm'
    · split
      · rename_i hl
        intro he
        simp only [List.length_append, List.length_singleton] at he
        omega
      · split
        · intro _; simp
        · exact hfull

/-- A pop keeps the queue well formed. -/
theorem pop_noticesOk {q : NoticeQueue} (h : NoticesOk q) : NoticesOk q.pop := by
  obtain ⟨hlen, hmark, _, _⟩ := h
  refine ⟨?_, ?_, ?_, rfl⟩
  · simp only [NoticeQueue.pop, updateInt_records, List.length_tail]; omega
  · cases hr : q.records with
    | nil => simp [NoticeQueue.pop, hr]
    | cons a rest =>
      cases rest with
      | nil => simp [NoticeQueue.pop, hr]
      | cons b rest =>
        rw [hr] at hmark
        simp only [NoticeQueue.pop, updateInt_records, hr, List.tail_cons]
        intro hc
        exact hmark (by simp [List.dropLast_cons_of_ne_nil, hc])
  · intro he
    simp only [NoticeQueue.pop, updateInt_records, List.length_tail, Config.noticeRoom] at he hlen
    omega

/-- An enable change keeps the queue well formed. -/
theorem setEnable_noticesOk {q : NoticeQueue} (h : NoticesOk q) (on : Bool) : NoticesOk (q.setEnable on) :=
  ⟨h.1, h.2.1, h.2.2.1, rfl⟩

end Sys2Proof.Machine
end

