-- ==== Sys2Proof/Laws/Requester.lean ====
section
/-! SUPPORT. What the requester side's shared operations leave alone: everything but the entries, the Request Queue,
the channels, the buffers, the requester list and the notices. -/

namespace Sys2Proof.Machine

/-- `t` differs from `s` at most in the entries, the Request Queue, the channels, the buffers, the requester list and
the notices. -/
structure RequesterFrame (s t : State) : Prop where
  pending : t.pending = s.pending
  pins : t.pins = s.pins
  windows : t.windows = s.windows
  slots : t.slots = s.slots
  sendOrder : t.sendOrder = s.sendOrder
  replay : t.replay = s.replay
  pointer : t.pointer = s.pointer
  line : t.line = s.line
  responder : t.engine.responder = s.engine.responder
  job : t.engine.job = s.engine.job
  timer : t.engine.timer = s.engine.timer
  lbreq : t.engine.lbreq = s.engine.lbreq
  cmd : t.cmd = s.cmd
  args : t.args = s.args
  result : t.result = s.result
  loader : t.loader = s.loader
  mem : t.mem = s.mem
  freeCount : t.freeCount = s.freeCount

namespace RequesterFrame

theorem refl (s : State) : RequesterFrame s s := by constructor <;> rfl

theorem trans {s t u : State} (h : RequesterFrame s t) (g : RequesterFrame t u) : RequesterFrame s u where
  pending := g.pending.trans h.pending
  pins := g.pins.trans h.pins
  windows := g.windows.trans h.windows
  slots := g.slots.trans h.slots
  sendOrder := g.sendOrder.trans h.sendOrder
  replay := g.replay.trans h.replay
  pointer := g.pointer.trans h.pointer
  line := g.line.trans h.line
  responder := g.responder.trans h.responder
  job := g.job.trans h.job
  timer := g.timer.trans h.timer
  lbreq := g.lbreq.trans h.lbreq
  cmd := g.cmd.trans h.cmd
  args := g.args.trans h.args
  result := g.result.trans h.result
  loader := g.loader.trans h.loader
  mem := g.mem.trans h.mem
  freeCount := g.freeCount.trans h.freeCount

theorem post (s : State) (n : Notice) : RequesterFrame s (s.post n) := by constructor <;> rfl

theorem setChannel (s : State) (c : Fin 8) (r : Channel) : RequesterFrame s (s.setChannel c r) := by
  constructor <;> rfl

theorem setEntry (s : State) (i : Fin 16) (e : Entry) : RequesterFrame s (s.setEntry i e) := by
  constructor <;> rfl

theorem returnBuffer (s : State) (b : Option (Fin 24)) : RequesterFrame s (s.returnBuffer b) := by
  cases b <;> constructor <;> rfl

theorem freeEntry (s : State) (i : Fin 16) : RequesterFrame s (s.freeEntry i) :=
  (returnBuffer s _).trans (setEntry _ _ _)

theorem releaseEntries (s : State) (f : Fin 16 → Release) : RequesterFrame s (s.releaseEntries f) := by
  unfold State.releaseEntries
  exact ⟨rfl, rfl, rfl, rfl, rfl, rfl, rfl, rfl, rfl, rfl, rfl, rfl, rfl, rfl, rfl, rfl, rfl, rfl⟩

theorem endOfPass (s : State) (c : Fin 8) : RequesterFrame s (s.endOfPass c) := by
  unfold State.endOfPass
  split <;> exact (setChannel _ _ _).trans (post _ _)

theorem lowerLive (s : State) (c : Fin 8) : RequesterFrame s (s.lowerLive c) := setChannel _ _ _

theorem settleHalting (s : State) (c : Fin 8) : RequesterFrame s (s.settleHalting c) := by
  unfold State.settleHalting
  split
  · exact (setChannel _ _ _).trans (post _ _)
  · exact refl s

theorem haltChannel (s : State) (c : Fin 8) (code : FaultCode) (off : Nat) (sig : Bool) :
    RequesterFrame s (s.haltChannel c code off sig) :=
  (releaseEntries s _).trans (setChannel _ _ _)

theorem reportComplete (s : State) (c : Fin 8) : RequesterFrame s (s.reportComplete c) := by
  unfold State.reportComplete
  split
  · split
    · split
      · exact setChannel _ _ _
      · exact (lowerLive s c).trans (endOfPass _ _)
    · exact lowerLive s c
  · exact (lowerLive s c).trans (endOfPass _ _)
  · exact (lowerLive s c).trans (settleHalting _ _)
  all_goals exact lowerLive s c

theorem reportFailure (s : State) (c : Fin 8) (code : FaultCode) (off : Nat) (sig : Bool) :
    RequesterFrame s (s.reportFailure c code off sig) := by
  unfold State.reportFailure
  split
  · exact (haltChannel s c code off sig).trans (settleHalting _ _)
  · exact (haltChannel s c code off sig).trans (settleHalting _ _)
  · exact (haltChannel s c code off sig).trans (settleHalting _ _)
  · exact (lowerLive s c).trans (settleHalting _ _)
  all_goals exact lowerLive s c

theorem reportFreed (s : State) (c : Fin 8) : RequesterFrame s (s.reportFreed c) :=
  (lowerLive s c).trans (settleHalting _ _)

theorem completeEntry (s : State) (i : Fin 16) : RequesterFrame s (s.completeEntry i) := by
  unfold State.completeEntry
  split
  · exact freeEntry s i
  · exact (freeEntry s i).trans (reportComplete _ _)

theorem failEntry (s : State) (i : Fin 16) (code : FaultCode) : RequesterFrame s (s.failEntry i code) := by
  unfold State.failEntry
  split
  · exact freeEntry s i
  · exact (freeEntry s i).trans (reportFailure _ _ _ _ _)

theorem dropEntry (s : State) (i : Fin 16) : RequesterFrame s (s.dropEntry i) := by
  unfold State.dropEntry
  split
  · exact freeEntry s i
  · exact (freeEntry s i).trans (reportFreed _ _)

theorem queueTail (s : State) (i : Fin 16) (e : Entry) : RequesterFrame s (s.queueTail i e) := by
  constructor <;> rfl

theorem queueHead (s : State) (i : Fin 16) : RequesterFrame s (s.queueHead i) := by
  constructor <;> rfl

theorem retryEntry (s : State) (i : Fin 16) : RequesterFrame s (s.retryEntry i) := by
  unfold State.retryEntry
  split
  · split
    · exact dropEntry s i
    · exact queueTail s i _
  · exact failEntry s i _

theorem holdEntry (s : State) (i : Fin 16) : RequesterFrame s (s.holdEntry i) := by
  unfold State.holdEntry
  split
  · split
    · exact dropEntry s i
    · exact setEntry s i _
  · exact failEntry s i _

theorem sendEntry (s : State) (i : Fin 16) : RequesterFrame s (s.sendEntry i) := by
  unfold State.sendEntry
  split
  · constructor <;> rfl
  · exact refl s

theorem entrySent (s : State) (i : Fin 16) (taken : Bool) : RequesterFrame s (s.entrySent i taken) := by
  unfold State.entrySent
  split
  · exact freeEntry s i
  · split
    · exact setEntry s i _
    · exact retryEntry s i

theorem entryClashed (s : State) (i : Fin 16) : RequesterFrame s (s.entryClashed i) := by
  unfold State.entryClashed
  split
  · exact freeEntry s i
  · split
    · exact dropEntry s i
    · exact queueHead s i

theorem entryRoundLost (s : State) (i : Fin 16) : RequesterFrame s (s.entryRoundLost i) := by
  unfold State.entryRoundLost
  split
  · exact freeEntry s i
  · exact refl s

theorem entryJobEnd (s : State) (i : Fin 16) (faulted : Bool) : RequesterFrame s (s.entryJobEnd i faulted) := by
  unfold State.entryJobEnd
  split
  · exact freeEntry s i
  · split
    · exact failEntry s i _
    · split
      · exact dropEntry s i
      · exact queueTail s i _
  · split
    · exact failEntry s i _
    · exact completeEntry s i
  all_goals exact refl s

theorem settleDone (s : State) (i : Fin 16) (o : DoneOutcome) : RequesterFrame s (s.settleDone i o) := by
  unfold State.settleDone
  split
  · exact completeEntry s i
  · exact failEntry s i _
  · exact failEntry s i _
  · exact failEntry s i _
  · exact holdEntry s i
  · exact holdEntry s i
  · exact failEntry s i _

end RequesterFrame

/-- An entry after a release, place by place. -/
theorem releaseEntries_entry (s : State) (f : Fin 16 → Release) (i : Fin 16) :
    (s.releaseEntries f).entries[i] = s.entries[i].afterRelease (f i) := by
  simp [State.releaseEntries]

/-- A buffer after a release, place by place. -/
theorem releaseEntries_buffer (s : State) (f : Fin 16 → Release) (b : Fin 24) :
    (s.releaseEntries f).buffers[b] = Buffer.afterRelease f s.buffers[b] := by
  simp [State.releaseEntries]

/-- The Request Queue after a release. -/
theorem releaseEntries_queue (s : State) (f : Fin 16 → Release) (i : Fin 16) :
    i ∈ (s.releaseEntries f).requestQueue ↔ i ∈ s.requestQueue ∧ f i = .keep := by
  simp [State.releaseEntries]

/-- A release that keeps every entry leaves the Request Queue as it was. -/
theorem releaseEntries_keep_queue (s : State) : (s.releaseEntries fun _ => .keep).requestQueue = s.requestQueue := by
  simp [State.releaseEntries]

end Sys2Proof.Machine
end

