-- ==== Sys2Proof/Laws/Responder.lean ====
section
/-! SUPPORT. What the responder side's shared operations leave alone: everything but the windows, the slots and the
send order, the replay records, the buffers, the engine's responder side and the notices. -/

namespace Sys2Proof.Machine

/-- Bytes put from the start stand before the rest. -/
theorem putBytes_toList (pay : List Byte) : ∀ (data : Vector Byte 64) (k : Nat), k + pay.length ≤ 64 →
    (putBytes data k pay).toList = data.toList.take k ++ pay ++ data.toList.drop (k + pay.length) := by
  induction pay with
  | nil => intro d k h; simp [putBytes]
  | cons b r ih =>
    intro d k h
    simp only [List.length_cons] at h
    rw [putBytes, ih _ _ (by omega)]
    apply List.ext_getElem?
    intro n
    simp only [Vector.toList_setIfInBounds, List.getElem?_append, List.length_append, List.length_take, List.length_set,
      Vector.length_toList, List.getElem?_take, List.getElem?_drop, List.getElem?_set, List.length_cons]
    have e1 : min (k + 1) 64 = k + 1 := by omega
    have e2 : min k 64 = k := by omega
    rw [e1, e2]
    rcases Nat.lt_trichotomy n k with hn | rfl | hn
    · have : ¬ k = n := by omega
      simp [hn, this, show n < k + 1 + r.length by omega, show n < k + (r.length + 1) by omega, show n < k + 1 by omega]
    · simp only [lt_irrefl, if_false, Nat.sub_self, List.getElem?_cons_zero]
      simp [show n < 64 by omega]
      omega
    · have a1 : ¬ n < k + 1 := by omega
      have a2 : ¬ n < k := by omega
      have a3 : ¬ k = k + 1 + r.length + (n - (k + 1 + r.length)) := by omega
      have a4 : (n - k) = (n - (k+1)) + 1 := by omega
      simp [a1, a2, a4]
      split_ifs <;> first | rfl | omega | (congr 1; omega)

/-- `t` differs from `s` at most in the windows, the slots, the send order, the replay records, the buffers, the engine
and the notices. -/
structure ResponderFrame (s t : State) : Prop where
  pending : t.pending = s.pending
  pins : t.pins = s.pins
  channels : t.channels = s.channels
  pointer : t.pointer = s.pointer
  entries : t.entries = s.entries
  requestQueue : t.requestQueue = s.requestQueue
  line : t.line = s.line
  cmd : t.cmd = s.cmd
  args : t.args = s.args
  result : t.result = s.result
  loader : t.loader = s.loader
  mem : t.mem = s.mem
  freeCount : t.freeCount = s.freeCount

namespace ResponderFrame

theorem refl (s : State) : ResponderFrame s s := by constructor <;> rfl

theorem trans {s t u : State} (h : ResponderFrame s t) (g : ResponderFrame t u) : ResponderFrame s u where
  pending := g.pending.trans h.pending
  pins := g.pins.trans h.pins
  channels := g.channels.trans h.channels
  pointer := g.pointer.trans h.pointer
  entries := g.entries.trans h.entries
  requestQueue := g.requestQueue.trans h.requestQueue
  line := g.line.trans h.line
  cmd := g.cmd.trans h.cmd
  args := g.args.trans h.args
  result := g.result.trans h.result
  loader := g.loader.trans h.loader
  mem := g.mem.trans h.mem
  freeCount := g.freeCount.trans h.freeCount

theorem post (s : State) (n : Notice) : ResponderFrame s (s.post n) := by constructor <;> rfl

theorem setWindow (s : State) (i : Fin 32) (w : WindowEntry) : ResponderFrame s (s.setWindow i w) := by
  constructor <;> rfl

theorem setSlot (s : State) (k : Fin 8) (o : Option Operation) : ResponderFrame s (s.setSlot k o) := by
  constructor <;> rfl

theorem setReplay (s : State) (k : Fin 512) (r : ReplayRecord) : ResponderFrame s (s.setReplay k r) := by
  constructor <;> rfl

theorem setEngine (s : State) (e : Engine) : ResponderFrame s (s.setEngine e) := by constructor <;> rfl

theorem giveBuffer (s : State) (b : Option (Fin 24)) (o : BufferOwner) : ResponderFrame s (s.giveBuffer b o) := by
  cases b <;> constructor <;> rfl

theorem returnBuffer (s : State) (b : Option (Fin 24)) : ResponderFrame s (s.returnBuffer b) := by
  cases b <;> constructor <;> rfl

theorem fillBuffer (s : State) (b : Option (Fin 24)) (p : List Byte) : ResponderFrame s (s.fillBuffer b p) := by
  cases b <;> constructor <;> rfl

theorem queueResponder (s : State) (j : Job) : ResponderFrame s (s.queueResponder j) := by
  obtain ⟨e, h⟩ := queueResponder_eq s j
  rw [h]
  exact setEngine s e

theorem touchWindow (s : State) (i : Fin 32) (sender : Station) (off : Nat) :
    ResponderFrame s (s.touchWindow i sender off) := by
  unfold State.touchWindow
  split
  · exact refl s
  · exact (setWindow _ _ _).trans (post _ _)

theorem commitSlot (s : State) (i : Fin 32) (slot : Nat) : ResponderFrame s (s.commitSlot i slot) := by
  unfold State.commitSlot
  split
  · exact (setWindow _ _ _).trans (post _ _)
  · exact setWindow _ _ _

theorem endUse (s : State) (i : Fin 32) : ResponderFrame s (s.endUse i) := by
  unfold State.endUse
  split
  · exact setWindow _ _ _
  · split
    · split
      · exact (setWindow _ _ _).trans (post _ _)
      · exact setWindow _ _ _
    · exact (setWindow _ _ _).trans (post _ _)
    · exact setWindow _ _ _
    · exact setWindow _ _ _

theorem answerAtOnce (s : State) (k : Fin 8) (r : Request) (o : DoneOutcome) :
    ResponderFrame s (s.answerAtOnce k r o) := by
  constructor <;> rfl

theorem serveSignal (s : State) (k : Fin 8) (r : Request) : ResponderFrame s (s.serveSignal k r) := by
  unfold State.serveSignal
  split
  · exact answerAtOnce _ _ _ _
  · split
    · exact answerAtOnce _ _ _ _
    · exact ((post _ _).trans (setReplay _ _ _)).trans (answerAtOnce _ _ _ _)

theorem recordAdmission (s : State) (r : Request) : ResponderFrame s (s.recordAdmission r) := by
  unfold State.recordAdmission
  split
  · exact setReplay _ _ _
  · exact refl s

theorem executeRequest (s : State) (k : Fin 8) (r : Request) : ResponderFrame s (s.executeRequest k r) :=
  ((((giveBuffer s _ _).trans (setWindow _ _ _)).trans (setSlot _ _ _)).trans (recordAdmission _ _)).trans
    (queueResponder _ _)

theorem serveWindow (s : State) (k : Fin 8) (r : Request) : ResponderFrame s (s.serveWindow k r) := by
  unfold State.serveWindow
  split
  · exact executeRequest s k r
  · exact (touchWindow _ _ _ _).trans (answerAtOnce _ _ _ _)
  · exact answerAtOnce _ _ _ _

theorem placePayload (s : State) (r : Request) : ResponderFrame s (s.placePayload r) := by
  unfold State.placePayload
  split
  · exact fillBuffer _ _ _
  · exact refl s

theorem takeRequest (s : State) (r : Request) : ResponderFrame s (s.takeRequest r).1 := by
  unfold State.takeRequest
  split
  · exact refl s
  · exact refl s
  · split
    · exact refl s
    · exact (placePayload s r).trans (answerAtOnce _ _ _ _)
  · split
    · exact refl s
    · refine (placePayload s r).trans ?_
      change ResponderFrame _ ((s.placePayload r).serveFresh _ r)
      unfold State.serveFresh
      split
      · exact serveSignal _ _ _
      · exact serveWindow _ _ _

theorem endExecution (s : State) (op : Operation) (faulted : Bool) :
    ResponderFrame s (s.endExecution op faulted) := by
  unfold State.endExecution
  split
  · exact refl s
  · rename_i w _
    cases op.mailboxSlot with
    | none =>
      cases faulted with
      | false => exact endUse _ _
      | true => exact (post _ _).trans (endUse _ _)
    | some slot =>
      cases faulted with
      | false => exact (commitSlot _ _ _).trans (endUse _ _)
      | true => exact ((commitSlot _ _ _).trans (post _ _)).trans (endUse _ _)

theorem settleRecord (s : State) (op : Operation) (faulted : Bool) :
    ResponderFrame s (s.settleRecord op faulted) := by
  unfold State.settleRecord
  split
  · exact setReplay _ _ _
  · exact refl s

theorem answerExecuted (s : State) (k : Fin 8) (op : Operation) (faulted : Bool) :
    ResponderFrame s (s.answerExecuted k op faulted) := by
  unfold State.answerExecuted
  split
  · constructor <;> rfl
  · exact (returnBuffer s op.buffer).trans (by constructor <;> rfl)

theorem operationJobEnd (s : State) (k : Fin 8) (faulted : Bool) :
    ResponderFrame s (s.operationJobEnd k faulted) := by
  unfold State.operationJobEnd
  split
  · exact refl s
  · exact ((endExecution _ _ _).trans (settleRecord _ _ _)).trans (answerExecuted _ _ _ _)

theorem endOperation (s : State) (k : Fin 8) (op : Operation) : ResponderFrame s (s.endOperation k op) :=
  (returnBuffer s op.buffer).trans (by constructor <;> rfl)

theorem responseSent (s : State) (k : Fin 8) (taken : Bool) : ResponderFrame s (s.responseSent k taken) := by
  unfold State.responseSent
  split
  · exact refl s
  · split
    · exact endOperation _ _ _
    · split
      · constructor <;> rfl
      · exact endOperation _ _ _

end ResponderFrame
end Sys2Proof.Machine
end

