-- ==== Sys2Proof/WellFormed.lean ====
section
/-! DEFINITION. Which commands are well formed: what each row's operand may be, so that every event outside
the block is one command and not two. -/

namespace Sys2Proof

/-- A command whose operands its row of the table allows. -/
def Instr.wf : Instr → Bool
  | .winOpen => true
  | .winPark => true
  | .winUnpark => true
  | .winClose => true
  | .winGrants => true
  | .winQuery => true
  | .mboxConsume => true
  | .chLoad => true
  | .chStart => true
  | .chAbort => true
  | .chClear => true
  | .chQuery => true
  | .lineRestart => true
  | .stationReset _ => true
  | .unknownCommand value enables => !(commandCodes.contains (enabledWord value enables))
  | .noticePop _ => true
  | .intEnable _ _ => true
  | .portWordWrite address _ _ =>
    portPosition address != 0 && portPosition address != 14 && portPosition address != 15
  | .resetAsserted _ => true
  | .resetReleased _ => true
  | .paceAsserted _ => true
  | .paceDeasserted _ => true
  | .lbgntAsserted => true
  | .lbgntDeasserted => true
  | .lberr _ => true
  | .busCycleComplete stores => stores.all fun c => decide (c.1 < Config.memorySize)
  | .grantWaitExpiry => true
  | .startOpportunity => true
  | .startMark seen => seen != .undriven
  | .roundLost => true
  | .roundWon => true
  | .frameCrcReceived conds => (receive conds).isSome
  | .frameEnd conds => endsFrame conds
  | .sentFrameEnd _ => true
  | .clash => true
  | .joiningTimerExpiry => true
  | .responseTimerExpiry _ => true
  | .holdTimerExpiry _ => true
  | .formation => true
  | .signalFormation => true

end Sys2Proof
end

