-- ==== Sys2Proof/Tests/Slice0.lean ====
section
/-! SUPPORT. The model's own tests: ill-formed commands, the manual's worked numbers, one step of each command on a
small state, and for each statement a state and operands that meet its hypotheses, clause by clause. -/

namespace Sys2Proof.Machine.Tests

-- One test at a time: many short theorems at once would each take a thread.
set_option Elab.async false

open Sys2Proof Sys2Proof.Machine

/-! ### Small states -/

/-- The start configuration of chapter 11, with every station in the signal grant set. -/
def config : StartConfig := ⟨3, .rotating, 7, 10, 3, 20, 5, 20, 0xFFFFFFFF⟩

/-- A RUNNING station 3 whose line is IDLE. -/
def up : State :=
  { State.reset with
    pins := { State.reset.pins with resetHeld := false }
    loader := ⟨.running, 3, config, none, Vector.replicate 44 0⟩
    line := { State.reset.line with state := .idle } }

/-- The same station STARTING, RESET# released. -/
def starting : State := { State.reset with pins := { State.reset.pins with resetHeld := false } }

/-- With argument words. -/
def asked (s : State) (a0 a1 a2 a3 a4 a5 : Word) : State := { s with args := #v[a0, a1, a2, a3, a4, a5] }

/-- An OPEN MEMORY window of 256 bytes at 4096 that grants station 5. -/
def memoryWindow : WindowEntry := openedEntry 0 4096 255 32 32

/-- An OPEN MAILBOX window of three slots at 131,072 that grants station 5. -/
def mailboxWindow : WindowEntry := openedEntry 1 131072 3 0 32

/-- A RUNNING PUSH channel to station 11 with one live entry. -/
def pushing : Channel :=
  { Channel.cleared with
    state := .running, target := 11, initialLocal := 8192, currentLocal := 8256, initialCount := 128
    remaining := 64, currentRemote := 64, frameSize := 64, depth := 2, armed := true, live := 1 }

/-- A SENT PUT of channel 0. -/
def sentEntry : Entry :=
  { Entry.freeWith 17 with
    state := .sent, owner := some 0, kind := .put, target := 11, localAddress := 8192, length := 64
    buffer := some 0, timer := .responseDeadline 200 }

/-- A buffer held by an entry. -/
def held (i : Fin 16) : Buffer := ⟨some (.entry i), Vector.replicate 64 7⟩

/-- Station 3 with channel 0 pushing and its entry 0 as given. -/
def requesting (e : Entry) : State := ((up.setChannel 0 pushing).setEntry 0 e).setBuffer 0 (held 0)

/-- The same with channel 0 in state `st`. -/
def ownedBy (st : ChannelState) (e : Entry) : State := (requesting e).setChannel 0 { pushing with state := st }

/-- The states of a channel whose pass a failure ends. -/
def failing : List ChannelState := [.running, .finishing, .signalling]

/-- A job waiting on each list. -/
def listing (s : State) : State :=
  { s with engine := { s.engine with
      responder := [Job.listed .read .responder 0 4 (some 2) (.operation 1) none]
      requester := [Job.listed .read .requester 0 4 (some 3) (.entry 9) none] } }

/-- With a frame in hand. -/
def inSend (s : State) (st : LineState) (o : HandOwner) : State :=
  s.setLine { s.line with state := st, hand := some ⟨⟨⟨true, 2, 3⟩, .done 5 ⟨0, 17⟩ 0⟩, o⟩ }

/-- Receiving a frame. -/
def receiving (s : State) : State := s.setLine { s.line with state := .receiving, rx := .receiving }

/-- A started job, MOVING, with the grant held. -/
def working (s : State) (j : Job) : State :=
  { s with
    pins := { s.pins with lbgnt := true }
    engine := { s.engine with job := some { j with phase := .moving }, lbreq := true } }

/-- A started job, REQUESTING. -/
def waiting (s : State) (j : Job) : State :=
  { s with engine := { s.engine with job := some { j with phase := .requesting }, timer := some 20, lbreq := true } }

/-- A request from station 5 to station 3. -/
def putFrame : Frame := ⟨⟨true, 1, 5⟩, .put 3 9 ⟨2, 17⟩ 4 16 3 [1, 2, 3]⟩
def mailFrame : Frame := ⟨⟨true, 1, 5⟩, .put 3 9 ⟨2, 17⟩ 4 0 3 [1, 2, 3]⟩
def getFrame : Frame := ⟨⟨true, 1, 5⟩, .get 3 9 ⟨2, 17⟩ 4 253 3⟩
def signalFrame : Frame := ⟨⟨true, 1, 5⟩, .signal 3 9 ⟨2, 17⟩ 77⟩
/-- A response from station 11 to station 3's entry 0. -/
def doneFrame (o : BitVec 3) : Frame := ⟨⟨false, 4, 11⟩, .done 3 ⟨0, 17⟩ o⟩
def dataFrame : Frame := ⟨⟨false, 4, 11⟩, .data 3 ⟨0, 17⟩ 2 [8, 9]⟩

/-- The executing PUT of `putFrame` in slot 0. -/
def putOperation : Operation :=
  ⟨.executing, 5, 9, ⟨2, 17⟩, .put, some 4, some 4112, some 3, none, none, some 1, none, 0⟩

/-- Its memory job. -/
def putJob : Job := Job.listed .write .responder 4112 3 (some 1) (.operation 0) none

/-- The same as a PUT to a MAILBOX window, slot 0 with sequence 1. -/
def slotOperation : Operation :=
  { putOperation with localAddress := some 131072, mailboxSlot := some 0, mailboxSequence := some 1 }

/-- Its slot write, before its last cycle. -/
def slotJob : Job := ⟨.write, .responder, 131072, 72, some 1, .operation 0, .listed, 68, some 0, false⟩

/-- The entry's staging read. -/
def stagingJob : Job := Job.listed .read .requester 8192 4 (some 0) (.entry 0) none

/-- Station 3 executing it. -/
def serving (op : Operation) : State :=
  (((up.setWindow 4 { memoryWindow with inUse := 1 }).setSlot 0 (some op)).setReplay 82 ⟨.pending, 9, 17, none⟩).setBuffer 1
    ⟨some (.operation 0), Vector.replicate 64 5⟩

/-- Whether a command goes to a next state of which `p` holds. -/
def goes (c : Instr) (s : State) (p : State → Bool) : Bool :=
  match exec c s with
  | .next t => p t
  | .fault _ => false
  | .refused _ => false

/-! ### Ill-formed commands are refused -/

theorem test_wf_unknownCommand : (Instr.unknownCommand 1 15).wf = false ∧ (Instr.unknownCommand 0x1FF 1).wf = true := by
  decide +kernel
theorem test_wf_frameEnd : (Instr.frameEnd [.undriven, .undriven]).wf = false ∧ Instr.frameEnd.wf = true := by decide +kernel
theorem test_wf_portWordWrite : (Instr.portWordWrite 0 5 15).wf = false ∧ (Instr.portWordWrite 56 5 15).wf = false ∧
    (Instr.portWordWrite 0xFFFF3C 5 15).wf = false ∧ (Instr.portWordWrite 24 5 15).wf = true := by decide +kernel
theorem test_wf_busCycleComplete : (Instr.busCycleComplete [(16777216, 1)]).wf = false ∧
    (Instr.busCycleComplete [(16777215, 1)]).wf = true := by decide +kernel
theorem test_wf_startMark : (Instr.startMark .undriven).wf = false ∧ (Instr.startMark .startMark).wf = true := by
  decide +kernel
theorem test_wf_frameCrcReceived : (Instr.frameCrcReceived [.bit0]).wf = false ∧
    (Instr.frameCrcReceived ((doneFrame 0).conds .undriven)).wf = true ∧
    (Instr.frameCrcReceived ((doneFrame 0).conds .abortMark)).wf = false := by decide +kernel

/-! ### The manual's worked numbers -/

/-- R194: the register after a first claim-word bit of 0 and of 1. -/
theorem test_crc : crc [false] = 0xEFDF#16 ∧ crc [true] = 0xFFFE#16 := by decide +kernel
/-- R193: the longest PUT and the shortest frames in bit times. -/
theorem test_bitTimes :
    (Frame.mk ⟨true, 0, 1⟩ (.put 3 9 ⟨2, 17⟩ 4 0 64 (List.replicate 64 0))).bitTimes = 614 ∧
    putFrame.bits.length = 79 + 8 * 3 ∧ putFrame.bitTimes = 102 + 8 * 3 := by decide +kernel
/-- Chapter 6's example: the ranks of stations 4, 17 and 12, and the round between 4 and 12. -/
theorem test_ranks : rank .rotating 4 9 = 26 ∧ rank .rotating 17 9 = 7 ∧ rank .rotating 12 17 = 26 ∧
    contend [(Claim.mk true 26 4).word, (Claim.mk true 26 12).word] = [(Claim.mk true 26 4).word] := by decide +kernel
/-- Chapter 7's example: 20 bytes at 4,002 take cycles of 2, 4, 4, 4, 4 and 2 bytes. -/
theorem test_cycles : ([0, 2, 6, 10, 14, 18].map fun m =>
    { Job.listed .write .responder 4002 20 (some 0) (.operation 0) none with moved := m }.cycleLength) =
      [2, 4, 4, 4, 4, 2] := by decide +kernel
/-- Chapter 10's example: CH_LOAD's words, and the words CH_QUERY gives after the first formation. -/
def loading : State := asked up 402656001 0 8192 128 576 0
theorem test_chLoad : goes .chLoad loading (fun t => t.channels[1] ==
    { pushing with state := .ready, currentLocal := 8192, remaining := 128, currentRemote := 0, reload := true
                   paced := true, live := 0 } && t.result == .done) = true := by decide +kernel
theorem test_chQuery : goes .chQuery (asked (up.setChannel 1 { pushing with reload := true, paced := true }) 1 0 0 0 0 0)
    (fun t => t.args[0] == 67108992 && t.args[4] == 738197568) = true := by decide +kernel
/-- Chapter 9's example: the checksum of an earlier block, then the right one. -/
def startBlock (sum : Word) : Vector Byte 44 :=
  Vector.ofFn fun k => ([(1 : Word), 3, 0, 7, 10, 3, 20, 5, 20, 0, sum].getD (k.val / 4) 0).extractLsb' (8 * (k.val % 4)) 8
theorem test_startBlock : startFailure (startBlock 4294967228) = some .checksum ∧
    startFailure (startBlock 4294967227) = none ∧
    startConfig (startBlock 4294967227) = { config with signalGrants := 0 } := by decide +kernel
/-- R52, R195: the header of a slot with sequence 3 is written after its data. -/
theorem test_headerBytes :
    ((List.range 8).map fun k => headerByte { putOperation with mailboxSequence := some 3 } k) =
      [3, 5, 0x11, 0x20, 9, 0, 3, 0] := by decide +kernel
/-- R124: a frame comes back from its conditions; a broken bit or an abort mark makes it bad. -/
theorem test_receive : receive (putFrame.conds .undriven) = some putFrame ∧
    receive (getFrame.conds .bit0) = some getFrame ∧ receive (putFrame.conds .abortMark) = none ∧
    receive ((signalFrame.conds .undriven).set 30 .startMark) = none ∧
    receive ((doneFrame 0).conds .undriven |>.set 5 .bit1) = none := by decide +kernel

/-! ### One step of each command -/

theorem test_winOpen : goes .winOpen (asked up 0x104 131072 3 0 32 0) (fun t => t.windows[4] == mailboxWindow) = true := by
  decide +kernel
theorem test_winPark : goes .winPark (asked (serving putOperation) 4 0 0 0 0 0) (fun t =>
    t.windows[4].state == .parked && t.windows[4].quietWanted && t.result == .pending) = true := by decide +kernel
theorem test_winUnpark : goes .winUnpark (asked (up.setWindow 4 { memoryWindow with state := .parked, touched := true })
    4 0 0 0 0 0) (fun t => t.windows[4] == memoryWindow) = true := by decide +kernel
theorem test_winClose : goes .winClose (asked (up.setWindow 4 memoryWindow) 4 0 0 0 0 0) (fun t =>
    t.windows[4] == .cleared && t.result == .done) = true := by decide +kernel
theorem test_winGrants : goes .winGrants (asked (up.setWindow 4 memoryWindow) 4 0 0 1 2 0) (fun t =>
    t.windows[4].readGrants == 1 && t.windows[4].writeGrants == 2) = true := by decide +kernel
theorem test_winQuery : goes .winQuery (asked (up.setWindow 4 memoryWindow) 4 0 0 0 0 0) (fun t =>
    t.args == #v[1, 4096, 255, 32, 32, 0]) = true := by decide +kernel
theorem test_mboxConsume : goes .mboxConsume (asked (up.setWindow 4 { mailboxWindow with committed := 2 }) 4 2 0 0 0 0)
    (fun t => t.windows[4].head == 2 && t.windows[4].committed == 0) = true := by decide +kernel
theorem test_chStart : goes .chStart (up.setChannel 0 { pushing with state := .ready }) (fun t =>
    t.channels[0].state == .running) = true := by decide +kernel
theorem test_chAbort : goes .chAbort (requesting sentEntry) (fun t =>
    t.channels[0].state == .faulted && t.entries[0] == Entry.freeWith 17 && t.buffers[0].owner == none &&
      t.notices.records == [.channelFault 0 .aborted 64 false]) = true := by decide +kernel
theorem test_chClear : goes .chClear (up.setChannel 0 { pushing with state := .done }) (fun t =>
    t.channels[0].state == .idle) = true := by decide +kernel
theorem test_lineRestart : goes .lineRestart (up.setLine { up.line with state := .silent, clashes := 16 }) (fun t =>
    t.line.state == .joining && t.line.clashes == 0 && t.line.lastWinner == 31) = true := by decide +kernel
theorem test_stationReset : goes (.stationReset 12) (serving putOperation) (fun t =>
    t.loader.number == 12 && t.loader.station == .starting && t.line.state == .offline && t.slots[0] == none &&
      t.engine.lbreq) = true := by decide +kernel
theorem test_unknownCommand : goes (.unknownCommand 0x1FF 1) up (fun t =>
    t.cmd == 255 && t.result == .unknownCommand) = true := by decide +kernel
theorem test_noticePop : goes (.noticePop 0) (up.post (.windowQuiet 3)) (fun t => t.notices.records == []) = true := by
  decide +kernel
theorem test_intEnable : goes (.intEnable 1 1) (up.post (.windowQuiet 3)) (fun t => t.notices.int) = true := by
  decide +kernel
theorem test_portWordWrite : goes (.portWordWrite 0x104 0xAABBCCDD 5) (asked up 0x11223344 0 0 0 0 0) (fun t =>
    t.args[0] == 0x11BB33DD#32) = true := by decide +kernel
theorem test_resetAsserted : goes (.resetAsserted 7) up (fun t => t.pins.resetHeld && (statusWord t) == 0x700#32) = true := by
  decide +kernel
theorem test_resetReleased : goes (.resetReleased 7) State.reset (fun t =>
    (statusWord t) == 0x700#32 && t.engine.timer == some 255 && t.engine.lbreq) = true := by decide +kernel
theorem test_paceAsserted : goes (.paceAsserted 1) (up.setChannel 1 { pushing with paced := true, armed := false }) (fun t =>
    t.channels[1].armed && t.pins.pace[1]) = true := by decide +kernel
theorem test_paceDeasserted : goes (.paceDeasserted 1) { up with pins := { up.pins with pace := #v[true, true, true, true] } }
    (fun t => t.pins.pace == #v[true, false, true, true]) = true := by decide +kernel
theorem test_lbgntAsserted : goes .lbgntAsserted (waiting up putJob) (fun t =>
    t.engine.job.map Job.phase == some .moving && t.engine.timer == none) = true := by decide +kernel
theorem test_lbgntDeasserted : goes .lbgntDeasserted (working up putJob) (fun t =>
    t.engine.job.map Job.lastCycle == some true) = true := by decide +kernel
theorem test_lberr : goes (.lberr true) (working (serving putOperation) putJob) (fun t =>
    t.notices.records == [.localFault 4 4112 none] && t.replay[82] == ⟨.settled, 9, 17, some .fault⟩ &&
      t.sendOrder == [0]) = true := by decide +kernel
/-- R162: an LBERR asserted in a job's last cycle, whose completion is taken first, leaves the next job MOVING. -/
theorem test_lberrAfterLastCycle : goes (.busCycleComplete []) (listing (working (serving putOperation) putJob)) (fun t =>
    t.engine.job.map Job.phase == some .moving && goes (.lberr false) t (fun u => u == t)) = true := by decide +kernel
/-- R54: a mailbox slot write that faults commits its slot all the same. -/
theorem test_slotFault : goes (.lberr true) ((working (serving slotOperation) slotJob).setWindow 4
    { mailboxWindow with inUse := 1, reserved := 1, state := .parked, quietWanted := true }) (fun t =>
    t.notices.records == [.mailboxArrival 4 0, .localFault 4 131072 (some 0), .windowQuiet 4] &&
      t.windows[4].committed == 1 && t.windows[4].reserved == 0 && t.buffers[1].owner == none) = true := by decide +kernel
theorem test_busCycleComplete : goes (.busCycleComplete [(4112, 9), (4115, 9)]) (working (serving putOperation) putJob)
    (fun t => t.mem == [(4112, 5), (4113, 5), (4114, 5), (4115, 9)] && t.replay[82] == ⟨.settled, 9, 17, some .ok⟩) = true := by
  decide +kernel
theorem test_grantWaitExpiry : goes .grantWaitExpiry (waiting (serving putOperation) putJob) (fun t =>
    t.engine.lbreq == false && t.sendOrder == [0]) = true := by decide +kernel
theorem test_startOpportunity : goes .startOpportunity { up with requestQueue := [0] } (fun t =>
    t.line.state == .contending && t.line.hand.map (fun h => h.frame.claim) == some ⟨true, 3, 3⟩) = true := by
  decide +kernel
theorem test_startMark : goes (.startMark .bit1) up (fun t => t.line.state == .receiving) = true := by decide +kernel
theorem test_roundLost : goes .roundLost (inSend (requesting { sentEntry with state := .releasing, owner := none, timer := .stopped })
    .contending (.request 0)) (fun t =>
    t.line.state == .receiving && t.entries[0].state == .free && t.buffers[0].owner == none) = true := by decide +kernel
theorem test_roundWon : goes .roundWon (inSend { requesting { sentEntry with state := .queued, timer := .stopped } with
    requestQueue := [0] } .contending (.request 0)) (fun t =>
    t.line.state == .sending && t.entries[0].state == .sending && t.requestQueue == []) = true := by decide +kernel
theorem test_putTaken : goes (.frameCrcReceived (putFrame.conds .undriven)) (receiving (up.setWindow 4 memoryWindow))
    (fun t => t.windows[4].inUse == 1 && t.replay[82].state == .pending && t.buffers[0].owner == some (.operation 0) &&
      t.line.rx == .good 5 true && (drives t) == [.bit0]) = true := by decide +kernel
/-- R30, R148: a PUT that is refused leaves its payload in the buffer it was given and gives back. -/
theorem test_putRefused : goes (.frameCrcReceived (putFrame.conds .undriven)) (receiving up) (fun t =>
    t.slots[0].map (fun op => (op.buffer, op.response)) == some (none, some (.done .absent)) &&
    t.buffers[0].owner == none && t.buffers[0].data.toList.take 4 == [1, 2, 3, 0]) = true := by decide +kernel
theorem test_mailTaken : goes (.frameCrcReceived (mailFrame.conds .undriven)) (receiving (up.setWindow 4
    { mailboxWindow with head := 2, committed := 1, sequence := 0xFFFE })) (fun t =>
    t.slots[0].map (fun op => (op.mailboxSlot, op.mailboxSequence, op.localAddress)) ==
      some (some 0, some 0xFFFF#16, some 131072)) = true := by decide +kernel
/-- The undriven bit times of a slot that no station drives and an end mark, or of a line gone quiet. -/
def quiet (n : Nat) : List LineCond := List.replicate n .undriven
theorem test_frameEnd : goes (.frameEnd (putFrame.conds .undriven ++ quiet 4))
    (up.setLine { up.line with state := .joining, rx := .good 5 false, joinTimer := some 0 })
    (fun t => t.line.state == .idle && t.line.lastWinner == 5 && t.notices.records == [.lineJoined .frame 5]) = true := by
  decide +kernel
/-- R125, R193: a good frame and one with a bad CRC end five bit times after the CRC whatever the line carries there; a frame
with an abort mark, one of unknown kind and one that goes undriven end at the third consecutive undriven bit time. -/
theorem test_endsFrame :
    ([putFrame.conds .undriven ++ [.bit0, .bit1, .undriven, .abortMark], putFrame.conds .bit1 ++ quiet 4,
      (putFrame.conds .undriven).set 0 .bit0 ++ quiet 2, (putFrame.conds .undriven).set 90 .bit1 ++ quiet 4,
      putFrame.conds .abortMark ++ quiet 3, [.bit1, .abortMark, .abortMark] ++ quiet 3,
      (putFrame.conds .undriven).take 40 ++ [.undriven, .undriven, .bit0] ++ quiet 3, quiet 3].all endsFrame) = true ∧
    ([putFrame.conds .undriven ++ quiet 3, putFrame.conds .undriven ++ quiet 5, putFrame.conds .abortMark ++ quiet 4,
      [.bit1, .abortMark, .undriven, .undriven], quiet 4].all fun c => !endsFrame c) = true ∧
    putFrame.bitTimes = 126 ∧ (putFrame.conds .undriven ++ quiet 4).length = 124 := by decide +kernel
/-- R125: a FRAME_END at another bit time, or after another frame than the receipt is of, is no event. -/
theorem test_frameEndElsewhere :
    ([putFrame.conds .undriven ++ quiet 3, (doneFrame 0).conds .undriven ++ quiet 5, quiet 3].all fun c =>
      goes (.frameEnd c) (up.setLine { up.line with state := .receiving, rx := .good 5 true }) fun t =>
        t.line.state == .receiving && t.line.rx == .good 5 true) = true := by decide +kernel
theorem test_sentFrameEnd : goes (.sentFrameEnd .bit0) (inSend (requesting { sentEntry with state := .sending, timer := .stopped })
    .sending (.request 0)) (fun t =>
    t.entries[0] == sentEntry && t.line.lastWinner == 3 && t.line.state == .idle) = true := by decide +kernel
theorem test_notTakenAtLimit : goes (.sentFrameEnd .undriven) (inSend (requesting
    { sentEntry with state := .sending, timer := .stopped, retry := 3, remoteOffset := 5 }) .sending (.request 0)) (fun t =>
    t.channels[0].state == .faulted && t.notices.records == [.channelFault 0 .noAnswer 5 false]) = true := by
  decide +kernel
theorem test_clash : goes .clash ((inSend (requesting { sentEntry with state := .sending, timer := .stopped }) .sending
    (.request 0)).setLine { up.line with state := .sending, clashes := 15, hand := some ⟨doneFrame 0, .request 0⟩ }) (fun t =>
    t.line.state == .silent && t.requestQueue == [0] && t.notices.records == [.lineSilent 16]) = true := by decide +kernel
/-- R140, R121: after a clash the station drives its abort mark, and over by the frame's end it drives nothing. -/
theorem test_abortMark : goes .clash (inSend up .sending (.response 0)) (fun t => (drives t) == [.abortMark] &&
    carried ((drives t) ++ [.bit1, .undriven, .bit0]) == .abortMark &&
    goes (.frameEnd ([.bit0, .abortMark] ++ quiet 3)) t (fun u => (drives u) == [])) = true := by decide +kernel
theorem test_joiningTimerExpiry : goes .joiningTimerExpiry
    (up.setLine { up.line with state := .joining, joinTimer := some 0, rx := .outOfStep }) (fun t => t.line.state == .idle && t.notices.records == [.lineJoined .quiet 31]) = true := by
  decide +kernel
theorem test_responseTimerExpiry : goes (.responseTimerExpiry 0) (requesting sentEntry) (fun t =>
    t.entries[0].state == .queued && t.entries[0].retry == 1 && t.requestQueue == [0]) = true := by decide +kernel
theorem test_holdTimerExpiry : goes (.holdTimerExpiry 0) (requesting { sentEntry with state := .holding, timer := .holdEnd 200 })
    (fun t => t.entries[0].state == .queued && t.requestQueue == [0]) = true := by decide +kernel
theorem test_formation : goes .formation (up.setChannel 0 { pushing with live := 0 }) (fun t =>
    t.entries[0].state == .staging && t.entries[0].epoch == 1 && t.channels[0].state == .finishing &&
      t.channels[0].live == 1 && t.pointer == 0 && t.engine.lbreq) = true := by decide +kernel
theorem test_signalFormation : goes .signalFormation
    (up.setChannel 6 { pushing with state := .signalling, live := 0, signal := some 66 }) (fun t =>
    t.entries[0].kind == .signal && t.entries[0].signalValue == 66 && t.requestQueue == [0] && t.pointer == 6) = true := by
  decide +kernel
theorem test_table_gives_no_bits : decodeTableWord 8 1 = none ∧ (up.withFetchWord 8 1) = up := ⟨rfl, rfl⟩

/-! ### What meets the statements' hypotheses -/

theorem witness_StepTakesFrontCommand :
    ({ up with pending := [.chStart] } : State).pending = [.chStart] ∧ State.reset.pending = [] := ⟨rfl, rfl⟩

theorem witness_CmdWriteTakesItsCode : up.pins.resetHeld = false ∧ up.loader.station = .running ∧
    starting.pins.resetHeld = false ∧ starting.loader.station ≠ .running ∧
    ([(0 : Word), 8, 15, 21, 31, 33, 47, 49].all fun v => !commandCodes.contains (enabledWord v 15)) = true ∧
    commandCodes = [1, 2, 3, 4, 5, 6, 7, 16, 17, 18, 19, 20, 32, 48] ∧ enabledWord 0x101 2 ∉ commandCodes := by decide +kernel
theorem witness_ownedCommands : (Instr.winOpen, (1 : Word), winOpen) ∈ ownedCommands ∧
    (Instr.lineRestart, (32 : Word), lineRestart) ∈ ownedCommands := by simp [ownedCommands]

theorem witness_HeldPortIgnoresWrites : State.reset.pins.resetHeld = true := rfl

theorem witness_PortWordWrites : up.pins.resetHeld = false ∧ portPosition 4 = 1 ∧ portPosition 24 = 6 ∧
    portPosition 28 = 7 ∧ portPosition 52 = 13 ∧ portPosition 64 = 16 ∧ portPosition 255 = 63 ∧ portPosition 256 = 0 ∧
    portPosition 56 = 14 ∧ portPosition 60 = 15 ∧ enabledWord 0xF20 1 = 32 ∧ enabledWord 0x130 1 = 48 := by
  decide +kernel

theorem witness_NoticePortWrites : up.pins.resetHeld = false ∧ NoticesOk ⟨[], true, false⟩ ∧
    NoticesOk ⟨[.overflow], true, true⟩ ∧ (1#4).getLsbD 0 = true ∧ (14#4).getLsbD 0 = false := by
  unfold NoticesOk
  decide +kernel

/-- A queue of `n` records, with the marker behind them or not. -/
def filled (n : Nat) (marker : Bool) : NoticeQueue :=
  ⟨List.replicate n (.windowQuiet 1) ++ (if marker then [.overflow] else []), false, false⟩

theorem witness_PostFindsRoom : NoticesOk (filled 0 false) ∧ NoticesOk (filled 30 false) ∧
    NoticesOk (filled 31 false) ∧ NoticesOk (filled 0 true) ∧ NoticesOk (filled 30 true) ∧
    NoticesOk (filled 31 true) ∧ Notice.windowQuiet 1 ≠ .overflow := by
  unfold NoticesOk
  decide +kernel

theorem witness_PortReads : portPosition 28 = 7 ∧ portPosition 32 = 8 ∧ portPosition 36 = 9 ∧ portPosition 40 = 10 ∧
    portPosition 52 = 13 ∧ portPosition 60 = 15 ∧ portPosition 64 = 16 ∧ portPosition 0 = 0 ∧ portPosition 24 = 6 ∧
    up.notices.records = [] ∧ (up.post (.windowQuiet 3)).notices.records = [.windowQuiet 3] ∧
    (filled 31 true).records.length = 32 := by decide +kernel

/-! Window commands -/

theorem witness_WinOpen_memory (s : State) (h : s = asked up 4 1 16777214 3 5 0) : Ready s ∧ argWindow s = 4 ∧
    s.windows[4].state = .free ∧ argKind s = 0 ∧ s.args[1].toNat ≤ 16777215 ∧ s.args[2].toNat ≤ 16777215 ∧
    s.args[1].toNat + s.args[2].toNat ≤ 16777215 := by
  subst h; unfold Ready; decide +kernel
theorem witness_WinOpen_mailbox (s : State) (h : s = asked up 0x11F 16758784 256 0 5 0) : Ready s ∧ argWindow s = 31 ∧
    s.windows[31].state = .free ∧ argKind s = 1 ∧ s.args[1].toNat ≤ 16777215 ∧ s.args[1].toNat % 8 = 0 ∧
    s.args[2].toNat = 256 ∧ s.args[1].toNat + s.args[2].toNat * 72 - 1 = 16777215 := by
  subst h; unfold Ready; decide +kernel
theorem witness_WinPark (s u : State) (h : s = asked (serving putOperation) 4 0 0 0 0 0)
    (g : u = asked (up.setWindow 4 memoryWindow) 4 0 0 0 0 0) : Ready s ∧ argWindow s = 4 ∧
    s.windows[4].state = .opened ∧ 0 < s.windows[4].inUse ∧ Ready u ∧ u.windows[4].state = .opened ∧
    u.windows[4].inUse = 0 := by
  subst h g; unfold Ready; decide +kernel
theorem witness_WinUnpark (s : State) (h : s = asked (up.setWindow 4 { memoryWindow with state := .parked, inUse := 1 })
    4 0 0 0 0 0) : Ready s ∧ argWindow s = 4 ∧ s.windows[4].state = .parked ∧ 0 < s.windows[4].inUse := by
  subst h; unfold Ready; decide +kernel
theorem witness_MboxConsume (s : State) (h : s = asked (up.setWindow 4 { mailboxWindow with committed := 3 }) 4 3 0 0 0 0) :
    Ready s ∧ argWindow s = 4 ∧ s.windows[4].state = .opened ∧ s.windows[4].kind = .mailbox ∧ 1 ≤ s.args[1].toNat ∧
    s.args[1].toNat = s.windows[4].committed := by
  subst h; unfold Ready; decide +kernel
theorem witness_MboxConsume_refused (s : State)
    (h : s = asked (up.setWindow 4 { mailboxWindow with committed := 2, state := .parked }) 4 3 0 0 0 0) :
    Ready s ∧ s.windows[4].state = .parked ∧ s.windows[4].committed < s.args[1].toNat ∧ memoryWindow.kind = .memory ∧
    (asked s 4 0 0 0 0 0).args[1].toNat = 0 ∧ argWindow (asked s 32 0 0 0 0 0) = 32 ∧ up.windows[4].state = .free ∧
    starting.pins.resetHeld = false ∧ starting.loader.station ≠ .running := by
  subst h; unfold Ready; decide +kernel
theorem witness_WindowCommandsRefused : Ready (asked up 32 0 0 0 0 0) ∧ argWindow (asked up 32 0 0 0 0 0) = 32 ∧
    argWindow (asked up 31 0 0 0 0 0) = 31 ∧ up.windows[31].state = .free ∧
    argKind (asked up 0x200 0 0 0 0 0) = 2 ∧ (asked up 0 16777216 0 0 0 0).args[1].toNat = 16777216 ∧
    16777215 < (asked up 0 16777215 1 0 0 0).args[1].toNat + (asked up 0 16777215 1 0 0 0).args[2].toNat ∧
    (asked up 0x100 4 2 0 0 0).args[1].toNat % 8 ≠ 0 ∧ (asked up 0x100 8 257 0 0 0).args[2].toNat = 257 ∧
    16777216 < (asked up 0x100 16777080 2 0 0 0).args[1].toNat + (asked up 0x100 16777080 2 0 0 0).args[2].toNat * 72 := by
  unfold Ready; decide +kernel
theorem witness_windowCommands : (Instr.winPark, (2 : Word), [WindowState.opened]) ∈ windowCommands ∧
    WindowState.free ∉ [WindowState.opened] := by decide +kernel
theorem witness_QueriesCopyRecords (s : State)
    (h : s = asked ((up.setWindow 4 { mailboxWindow with slotCount := 256, committed := 256, head := 255, base := 16758784 }).setChannel 4
      { pushing with remaining := 16777216, faultOffset := 16777216, live := 4, depth := 4 }) 4 0 0 0 0 0) :
    Ready s ∧ argWindow s = 4 ∧ argChannel s = 4 ∧ s.windows[4].base < 16777216 ∧ s.windows[4].limit < 16777216 ∧
    s.windows[4].slotCount ≤ 256 ∧ s.windows[4].inUse ≤ 8 ∧ s.windows[4].reserved ≤ 8 ∧ s.windows[4].head < 256 ∧
    s.windows[4].committed ≤ 256 ∧ s.channels[4].initialCount ≤ 16777216 ∧ s.channels[4].initialRemote < 16777216 ∧
    s.channels[4].initialLocal < 16777216 ∧ s.channels[4].remaining ≤ 16777216 ∧ s.channels[4].frameSize ≤ 64 ∧
    s.channels[4].depth ≤ 4 ∧ s.channels[4].live ≤ 4 ∧ s.channels[4].faultOffset ≤ 16777216 := by
  subst h; unfold Ready; decide +kernel
theorem witness_ExecutionEndDrains : 1 < (up.setWindow 4 { memoryWindow with inUse := 2 }).windows[4].inUse ∧
    (up.setWindow 4 { memoryWindow with inUse := 1 }).windows[4].inUse = 1 ∧
    (∀ st ∈ [WindowState.opened, .parked, .closing],
      (up.setWindow 4 { memoryWindow with inUse := 1, state := st, quietWanted := true }).windows[4].state = st) := by
  decide +kernel

/-! Channel commands -/

theorem witness_ChLoadFillsRecord (s : State) (a : LoadArgs) (h : s = loading) (g : a = loadArgs loading) : Ready s ∧
    argChannel s = 1 ∧ loadArgs s = a ∧ s.channels[1].state = .idle ∧ a.direction ≤ 1 ∧ a.target ≤ 31 ∧
    a.target ≠ s.loader.number.toNat ∧ a.window ≤ 31 ∧ a.remote ≤ 16777215 ∧ a.local' ≤ 16777215 ∧
    a.count ≤ 16777216 ∧ (a.count = 0 → a.signalPresent = true) ∧ 1 ≤ a.frameSize ∧ a.frameSize ≤ 64 ∧ 1 ≤ a.depth ∧
    a.depth ≤ 4 ∧ (a.pacing = true → 1 ≤ 3) ∧ (a.mailbox = true → a.direction = 0) ∧
    a.local' + a.count ≤ 16777216 ∧ a.remote + a.count ≤ 16777216 := by
  subst h g; unfold Ready; decide +kernel
theorem witness_ChLoad_wholeSpace (a : LoadArgs) (g : a = loadArgs (asked up 0x00000B07 0 0 16777216 0x440 0)) :
    a.count = 16777216 ∧ a.local' + a.count ≤ 16777216 ∧ a.remote + a.count ≤ 16777216 ∧ a.frameSize = 64 ∧
    a.depth = 4 ∧ a.pacing = false := by subst g; decide +kernel
theorem witness_ChLoad_signalOnly (a : LoadArgs) (g : a = loadArgs (asked up 0x21000B07 16777215 16777215 0 0x101 9)) :
    a.count = 0 ∧ a.signalPresent = true ∧ a.local' = 16777215 ∧ a.direction = 1 := by subst g; decide +kernel
theorem witness_ChStartAndClear (s u v : State) (h : s = up.setChannel 0 { pushing with state := .ready })
    (g : u = up.setChannel 0 { pushing with state := .ready, initialCount := 0 })
    (k : v = up.setChannel 0 { pushing with state := .faulted }) : Ready s ∧ argChannel s = 0 ∧
    s.channels[0].state = .ready ∧ 0 < s.channels[0].initialCount ∧ Ready u ∧ u.channels[0].initialCount = 0 ∧ Ready v ∧
    v.channels[0].state = .faulted := by
  subst h g k; unfold Ready; decide +kernel
theorem witness_ChannelCommandsRefused : Ready (asked up 8 0 0 0 0 0) ∧ argChannel (asked up 8 0 0 0 0 0) = 8 ∧
    (Instr.chStart, (17 : Word), [ChannelState.ready]) ∈ channelCommands ∧ up.channels[7].state ∉ [ChannelState.ready] ∧
    (loadArgs (asked up 0x00000307 0 0 1 0x101 0)).target = up.loader.number.toNat ∧
    (loadArgs (asked up 0x02000000 0 0 0 0 0)).direction = 2 ∧ (loadArgs (asked up 0x2000 0 0 0 0 0)).target = 32 ∧
    (loadArgs (asked up 0x10000000 0 0 0 0 0)).pacing = true ∧
    (loadArgs (asked up 0 0 0 0 0x541 0)).frameSize = 65 ∧ (loadArgs (asked up 0 0 0 0 0x541 0)).depth = 5 ∧
    16777216 < (loadArgs (asked up 0 0 16777215 2 0 0)).local' + (loadArgs (asked up 0 0 16777215 2 0 0)).count := by
  unfold Ready; decide +kernel

/-- `RequestsOk` can be decided. -/
@[reducible] def decideLive (r : Channel) : Decidable (LiveOk r) := by
  unfold LiveOk; split <;> exact inferInstance
@[reducible] def decideTimer (e : Entry) : Decidable (TimerOk e) := by
  unfold TimerOk; split <;> exact inferInstance
@[reducible] def decideEntry (s : State) (i : Fin 16) : Decidable (EntryOk s i) := by
  unfold EntryOk; split <;> exact inferInstance
@[reducible] def decideRequests (s : State) : Decidable (RequestsOk s) := by
  unfold RequestsOk
  haveI := fun r => decideLive r
  haveI := fun e => decideTimer e
  haveI := fun i => decideEntry s i
  exact inferInstance

/-- A RUNNING channel 0 with entries SENT, QUEUED, STAGING and listed, and LANDING and started. -/
def aborting : State :=
  { ((((up.setChannel 0 { pushing with live := 4, depth := 4 }).setEntry 0 sentEntry).setEntry 1
      { sentEntry with state := .queued, timer := .stopped, buffer := none }).setEntry 2
      { sentEntry with state := .staging, timer := .stopped, buffer := none }).setEntry 3
      { sentEntry with state := .landing, timer := .stopped, buffer := none } with
    requestQueue := [1]
    engine := { up.engine with
      job := some (Job.listed .write .requester 0 4 none (.entry 3) none)
      requester := [Job.listed .read .requester 0 4 none (.entry 2) none] } }
/-- A SIGNALLING channel 0 whose QUEUED entry is in hand in CONTENDING. -/
def abortingSignal : State :=
  inSend { (up.setChannel 0 { pushing with state := .signalling, remaining := 0 }).setEntry 0
    { sentEntry with state := .queued, timer := .stopped, kind := .signal, buffer := none } with requestQueue := [0] }
    .contending (.request 0)
/-- A HALTING channel 0 whose entry is SENDING. -/
def abortingHalt : State :=
  inSend ((up.setChannel 0 { pushing with state := .halting, faultOffset := 64 }).setEntry 0
    { sentEntry with state := .sending, timer := .stopped }) .sending (.request 0)

theorem witness_ChAbort_running : Ready aborting ∧ argChannel aborting = 0 ∧ RequestsOk aborting ∧
    aborting.channels[0].state = .running ∧ aborting.entries[0].state = .sent ∧ aborting.entries[1].state = .queued ∧
    inHand aborting 1 = false ∧ aborting.entries[2].state = .staging ∧ (∃ j ∈ aborting.engine.requester, j.owner = .entry 2) ∧
    aborting.entries[3].state = .landing ∧ (∀ j ∈ aborting.engine.requester, j.owner ≠ .entry 3) ∧ aborting.entries[4].owner ≠ some 0 := by
  have h := @of_decide_eq_true _ (decideRequests aborting) (by decide +kernel)
  simp only [h, true_and]
  unfold Ready; decide +kernel
theorem witness_ChAbort_signalling : Ready abortingSignal ∧ argChannel abortingSignal = 0 ∧
    RequestsOk abortingSignal ∧ abortingSignal.channels[0].state = .signalling ∧
    abortingSignal.entries[0].state = .queued ∧ inHand abortingSignal 0 = true := by
  have h := @of_decide_eq_true _ (decideRequests abortingSignal) (by decide +kernel)
  simp only [h, true_and]
  unfold Ready; decide +kernel
theorem witness_ChAbort_halting : Ready abortingHalt ∧ argChannel abortingHalt = 0 ∧ RequestsOk abortingHalt ∧
    abortingHalt.channels[0].state = .halting ∧ abortingHalt.entries[0].state = .sending := by
  have h := @of_decide_eq_true _ (decideRequests abortingHalt) (by decide +kernel)
  simp only [h, true_and]
  unfold Ready; decide +kernel

/-! Formation -/

theorem witness_Formations_data (s u : State) (h : s = up.setChannel 7 { pushing with live := 0, remaining := 1 })
    (g : u = up.setChannel 0 { pushing with live := 0, direction := .pull }) : PoolInv s ∧ arbiterChoice s = some 7 ∧
    eligibleData s 7 = true ∧ freeIndex s = some 0 ∧ s.channels[7].direction = .push ∧ PoolInv u ∧
    arbiterChoice u = some 0 ∧ eligibleData u 0 = true ∧ freeIndex u = some 0 ∧ u.channels[0].direction = .pull := by
  subst h g
  unfold PoolInv; decide +kernel
theorem witness_Formations_signal (s : State)
    (h : s = up.setChannel 6 { pushing with state := .signalling, live := 0, signal := some 66 }) :
    arbiterChoice s = some 6 ∧ eligibleSignal s 6 = true ∧ s.channels[6].state = .signalling ∧ s.channels[6].live = 0 ∧
    s.channels[6].signal = some 66 ∧ freeIndex s = some 0 := by subst h; decide +kernel
theorem witness_PaceInputsArmChannels (s : State) (h : s = up.setChannel 3 { pushing with paced := true, armed := false }) :
    (3 : Fin 8).val = (3 : Fin 4).val ∧ s.pins.pace[3] = false ∧ s.channels[3].paced = true ∧
    s.channels[3].state = .running ∧ s.channels[3].armed = false ∧ up.channels[3].paced = false := by
  subst h; decide +kernel

/-! The line -/

theorem witness_StartOpportunity_rank : (3 : BitVec 5).toNat = (match up.loader.config.policy with
      | .rotating => (up.loader.number.toNat + 63 - up.line.lastWinner.toNat) % 32
      | .fixed => up.loader.number.toNat) ∧ up.line.state = .idle ∧ up.sendOrder = [] ∧ up.requestQueue = [] ∧
    starting.line.state ≠ .idle := by decide +kernel
theorem witness_StartOpportunity_response (s : State) (h : s = { (up.setSlot 0 (some { putOperation with
    phase := .answering, response := some .data })) with sendOrder := [0] }) : s.line.state = .idle ∧ s.sendOrder = [0] ∧
    (s.slots[0].map Operation.response) = some (some .data) ∧ (s.slots[0].bind Operation.buffer) = some 1 ∧
    (s.slots[0].bind Operation.length) = some 3 ∧
    (s.slots[0].map fun op => (op.answered (.done .full)).response) = some (some (.done .full)) := by
  subst h; decide +kernel
theorem witness_StartOpportunity_request (s : State) (h : s = { requesting sentEntry with requestQueue := [0] }) :
    s.line.state = .idle ∧ s.sendOrder = [] ∧ s.requestQueue = [0] ∧ s.entries[0].kind = .put ∧
    s.entries[0].buffer = some 0 ∧ ({ sentEntry with kind := .get } : Entry).kind = .get ∧
    ({ sentEntry with kind := .signal } : Entry).kind = .signal := by subst h; decide +kernel
theorem witness_RoundsWonAndLost : (inSend up .contending (.response 0)).line.state = .contending ∧
    (inSend up .contending (.response 0)).line.hand.map Hand.owner = some (.response 0) ∧
    (∀ st ∈ [EntryState.queued, .releasing],
      (inSend (requesting { sentEntry with state := st }) .contending (.request 0)).line.hand.map Hand.owner =
        some (.request 0) ∧
      (inSend (requesting { sentEntry with state := st }) .contending (.request 0)).entries[0].state = st) := by
  decide +kernel
theorem witness_LowestClaimWins : [(Claim.mk true 26 4).word] ≠ [] ∧ LineCond.startMark ≠ .undriven ∧
    carried ([true, false].map LineCond.ofBit) = .bit0 ∧ [true, false] ≠ [] := by decide +kernel
theorem witness_ResponseSendResult (s : State) (h : s = inSend { (up.setSlot 0 (some { putOperation with
    phase := .answering, response := some (.done .ok), buffer := none, sendCount := 2 })) with sendOrder := [0] } .sending
    (.response 0)) : s.line.state = .sending ∧ s.line.hand.map Hand.owner = some (.response 0) ∧ s.sendOrder = [0] ∧
    (s.slots[0].map Operation.sendCount) = some 2 ∧ (0 : Fin 8) ∉ ([] : List (Fin 8)) := by subst h; decide +kernel
theorem witness_RequestSendResult (s : EntryState → Nat → ChannelState → State)
    (h : s = fun st n c => inSend (ownedBy c { sentEntry with state := st, timer := .stopped, retry := n }) .sending (.request 0)) :
    (∀ st ∈ [EntryState.sending, .releasing], ∀ n ∈ [2, 3], ∀ c ∈ ChannelState.halting :: failing,
      (s st n c).line.state = .sending ∧ (s st n c).line.hand.map Hand.owner = some (.request 0) ∧
      (s st n c).entries[0].state = st ∧ (s st n c).entries[0].owner = some 0 ∧ (s st n c).channels[0].state = c) ∧
    (s .sending 2 .running).entries[0].retry < (s .sending 2 .running).loader.config.retryLimit ∧
    (s .sending 3 .running).entries[0].retry = (s .sending 3 .running).loader.config.retryLimit ∧
    (∀ c : Fin 8, (s .sending 2 .running).entries[0].owner = some c → (s .sending 2 .running).channels[c].state ≠ .halting) := by
  subst h; decide +kernel
theorem witness_ClashReturnsFrame (s : EntryState → ChannelState → State)
    (h : s = fun st c => inSend (ownedBy c { sentEntry with state := st, timer := .stopped }) .sending (.request 0)) :
    (∀ st ∈ [EntryState.sending, .releasing], ∀ c ∈ ChannelState.halting :: failing,
      (s st c).line.state = .sending ∧ (s st c).line.hand.map Hand.owner = some (.request 0) ∧
      (s st c).entries[0].state = st ∧ (s st c).entries[0].owner = some 0 ∧ (s st c).channels[0].state = c) ∧
    (∀ c : Fin 8, (s .sending .running).entries[0].owner = some c → (s .sending .running).channels[c].state ≠ .halting) ∧
    (inSend up .sending (.response 0)).line.hand.map Hand.owner = some (.response 0) ∧
    (s .sending .running).line.clashes + 1 < 16 ∧
    ((s .sending .running).setLine { (s .sending .running).line with clashes := 15 }).line.clashes + 1 = 16 ∧
    (∀ st ∈ [LineState.offline, .joining, .idle, .silent], (up.setLine { up.line with state := st }).line.state = st) ∧
    up.line.aborting = false ∧ (inSend up .contending (.response 0)).line.aborting = false ∧
    (inSend up .contending (.response 0)).line.hand.isSome = true ∧
    (receiving up).line.rx ≠ .good 5 true ∧ (receiving up).line.aborting = false := by
  subst h; decide +kernel
theorem witness_TimerExpiriesRequeue (s : Nat → ChannelState → State) (u : State)
    (h : s = fun n c => ownedBy c { sentEntry with retry := n })
    (g : u = requesting { sentEntry with state := .holding, timer := .holdEnd 200 }) :
    (∀ n ∈ [2, 3], ∀ c ∈ ChannelState.halting :: failing, (s n c).entries[0].state = .sent ∧
      (s n c).entries[0].timer = .responseDeadline 200 ∧ (s n c).entries[0].owner = some 0 ∧
      (s n c).channels[0].state = c) ∧
    (s 2 .running).entries[0].retry < (s 2 .running).loader.config.retryLimit ∧
    (s 3 .running).entries[0].retry = (s 3 .running).loader.config.retryLimit ∧
    (∀ c : Fin 8, (s 2 .running).entries[0].owner = some c → (s 2 .running).channels[c].state ≠ .halting) ∧
    u.entries[0].state = .holding ∧ u.entries[0].timer = .holdEnd 200 := by
  subst h g; decide +kernel
theorem witness_LineRestartRejoins : Ready up ∧ up.line.state ≠ .silent ∧
    Ready (up.setLine { up.line with state := .silent, clashes := 16 }) := by unfold Ready; decide +kernel
theorem witness_ReceiptsBeginAndEnd : LineCond.bit1 ≠ .undriven ∧ up.line.state = .idle ∧
    (∀ st ∈ [LineState.idle, .joining, .silent, .offline, .contending, .sending, .receiving],
      ∀ rx ∈ [Receipt.nothing, .outOfStep, .receiving, .good 4 true],
      (up.setLine { up.line with state := st, rx := rx }).line.state = st ∧
      (up.setLine { up.line with state := st, rx := rx }).line.rx = rx) := by decide +kernel
/-- Conditions of each of the ways R125 tells apart. -/
theorem witness_FrameEndPlaces (good cut : List LineCond) (g : good = putFrame.conds .undriven ++ .bit0 :: quiet 3)
    (h : cut = putFrame.conds .abortMark ++ quiet 3) :
    endsFrame good = true ∧ receivedFrame good = some putFrame ∧ putFrame.claim.sender = 5 ∧
    receive (putFrame.conds .undriven) = some putFrame ∧ endsFrame cut = true ∧ receivedFrame cut = none ∧
    frameExtent cut = some 119 ∧ cut[119]? = some .abortMark ∧ frameExtent good = some 119 ∧ good[119]? = some .undriven ∧
    (∀ k : Fin 119, good[k.val]? ≠ some .undriven ∧ good[k.val]? ≠ some .abortMark) ∧
    frameExtent (quiet 3) = none ∧ endsFrame (quiet 3) = true ∧ receivedFrame (quiet 3) = none ∧ endsFrame [] = false ∧
    (doneFrame 0).claim.sender ≠ 9 := by
  subst g h; decide +kernel

/-! Receiving -/

theorem witness_Receives : Receives (receiving up) (putFrame.conds .undriven) putFrame ∧
    Receives (receiving up) (signalFrame.conds .undriven) signalFrame ∧
    Receives (receiving up) ((doneFrame 4).conds .bit1) (doneFrame 4) := by unfold Receives; decide +kernel
theorem witness_FramesThatLeaveNoTrace : (receiving up).line.rx = .receiving ∧
    (putFrame.body.dest ≠ (4 : Station)) ∧ receive [.bit0] = none ∧ up.line.rx ≠ .receiving ∧
    starting.loader.station ≠ .running ∧ up.line.state ≠ .receiving ∧ up.entries[0].epoch ≠ 17 := by decide +kernel
theorem witness_AnswersThatMatchNothing (s : RequestKind → State)
    (h : s = fun k => receiving (requesting { sentEntry with kind := k, length := 3 })) :
    (∀ k ∈ [RequestKind.put, .get, .signal], (s k).entries[0].kind = k ∧ (s k).entries[0].epoch = 17 ∧
      (s k).entries[0].length ≠ 2 ∧ Receives (s k) (dataFrame.conds .undriven) dataFrame ∧
      ∀ o ∈ [(0 : BitVec 3), 1, 6], Receives (s k) ((doneFrame o).conds .undriven) (doneFrame o)) ∧
    dataFrame.body = .data 3 ⟨0, 17⟩ 2 [8, 9] ∧ (doneFrame 0).body = .done 3 ⟨0, 17⟩ 0 ∧ up.loader.number = 3 ∧
    (s .put).entries[0].state = .sent ∧ (s .put).entries[1].state = .free := by
  subst h; unfold Receives; decide +kernel
/-- A GET of length `n` for station 3. -/
def getOf (n : BitVec 7) : Frame := ⟨⟨true, 1, 5⟩, .get 3 9 ⟨2, 17⟩ 4 253 n⟩
theorem witness_FramesNotWellFormed : (∀ n ∈ [(0 : BitVec 7), 65, 127],
      Receives (receiving up) ((getOf n).conds .undriven) (getOf n) ∧ (getOf n).body.dest = up.loader.number ∧
      (n = 0 ∨ 64 < n.toNat)) ∧
    Receives (receiving up) ((doneFrame 7).conds .undriven) (doneFrame 7) ∧
    (doneFrame 7).body = .done up.loader.number ⟨0, 17⟩ 7 := by unfold Receives; decide +kernel
theorem witness_PutExecutedOnMemoryWindow (s : State) (h : s = receiving (up.setWindow 4 { memoryWindow with limit := 18 })) :
    Receives s (putFrame.conds .undriven) putFrame ∧ PoolInv s ∧ putFrame.sendable = true ∧
    replayIndex putFrame.claim.sender 2 = 82 ∧ s.replay[82].state ≠ .pending ∧
    (s.replay[82].state = .settled → s.replay[82].incarnation ≠ 9 ∨ s.replay[82].epoch ≠ 17) ∧ freeSlot s = some 0 ∧
    s.windows[4].state = .opened ∧ s.windows[4].kind = .memory ∧ s.windows[4].writeGrants.getLsbD 5 = true ∧
    (16#24).toNat + (3#7).toNat = s.windows[4].limit + 1 := by
  subst h
  unfold Receives PoolInv; decide +kernel
theorem witness_GetExecuted (s : State) (h : s = receiving (up.setWindow 4 memoryWindow)) :
    Receives s (getFrame.conds .undriven) getFrame ∧ PoolInv s ∧ getFrame.sendable = true ∧ freeSlot s = some 0 ∧
    s.windows[4].state = .opened ∧ s.windows[4].kind = .memory ∧ s.windows[4].readGrants.getLsbD 5 = true ∧
    (253#24).toNat + (3#7).toNat = s.windows[4].limit + 1 := by
  subst h
  unfold Receives PoolInv; decide +kernel
theorem witness_MailboxPutReservesSlot (s : State)
    (h : s = receiving ((up.setWindow 4 { mailboxWindow with head := 2, committed := 2 }).setReplay 82
      ⟨.settled, 9, 16, some .ok⟩)) :
    Receives s (mailFrame.conds .undriven) mailFrame ∧ PoolInv s ∧ mailFrame.sendable = true ∧
    s.replay[82].state ≠ .pending ∧
    (s.replay[82].state = .settled → s.replay[82].incarnation ≠ 9 ∨ s.replay[82].epoch ≠ 17) ∧ freeSlot s = some 0 ∧
    s.windows[4].state = .opened ∧ s.windows[4].kind = .mailbox ∧ s.windows[4].writeGrants.getLsbD 5 = true ∧
    s.windows[4].committed + s.windows[4].reserved < s.windows[4].slotCount := by
  subst h
  unfold Receives PoolInv; decide +kernel
theorem witness_SignalServed (s u v : State) (h : s = receiving up)
    (g : u = receiving { up with notices := filled 31 false }) (k : v = receiving { up with notices := filled 30 false }) :
    Receives s (signalFrame.conds .undriven) signalFrame ∧ s.replay[82].state ≠ .pending ∧ freeSlot s = some 0 ∧
    s.loader.config.signalGrants.getLsbD 5 = true ∧ s.notices.records.length ≤ 30 ∧
    Receives u (signalFrame.conds .undriven) signalFrame ∧ 30 < u.notices.records.length ∧
    v.notices.records.length = 30 ∧ ({ config with signalGrants := 0 } : StartConfig).signalGrants.getLsbD 5 = false := by
  subst h g k; unfold Receives; decide +kernel

/-- The request that `putFrame` carries. -/
def putRequest : Request := ⟨5, .put, 9, ⟨2, 17⟩, 4, 16, 3, [1, 2, 3], 0⟩
/-- Station 3 with every slot taken. -/
def full : State := { up with slots := Vector.replicate 8 (some putOperation) }

theorem witness_ReplayRecordDecides : Receives (receiving up) (putFrame.conds .undriven) putFrame ∧
    putFrame.body.dest = up.loader.number ∧ frameRequest putFrame = some putRequest ∧ putRequest.kind ≠ .get ∧
    (serving putOperation).replay[replayIndex putRequest.sender putRequest.tag.entry] = ⟨.pending, 9, 17, none⟩ ∧
    up.replay[replayIndex putRequest.sender putRequest.tag.entry].state = .empty ∧ freeSlot up = some 0 ∧
    freeSlot full = none ∧ (∀ k : Fin 8, full.slots[k] ≠ none) ∧ up.slots[0] = none ∧
    (∀ o ∈ [ReplayOutcome.ok, .fault],
      (up.setReplay 82 ⟨.settled, 9, 17, some o⟩).replay[replayIndex putRequest.sender putRequest.tag.entry] =
        ⟨.settled, 9, 17, some o⟩) ∧ (10 : Byte) ≠ putRequest.incarnation ∧ freeBuffer up = some 0 ∧
    putRequest.payload.length ≤ 64 ∧ PoolInv up := by unfold Receives PoolInv; decide +kernel
theorem witness_RefusalAnswered : putRequest.kind ≠ .signal ∧
    (∀ o ∈ [DoneOutcome.absent, .denied, .range, .parked, .full], ∃ w ∈ [WindowEntry.cleared,
        { memoryWindow with writeGrants := 0 }, { memoryWindow with limit := 17 }, { memoryWindow with state := .parked },
        { mailboxWindow with committed := 3 }],
      windowRefusal w (decide (putRequest.kind = .put)) 5 (if w.kind = .mailbox then 0 else 16) 3 = some o) := by
  decide +kernel
theorem witness_DoneOkCompletesEntry (s : EntryState → ChannelState → State)
    (h : s = fun st c => receiving (ownedBy c { sentEntry with kind := .put, state := st })) :
    (∀ st ∈ [EntryState.sent, .queued, .holding], ∀ c ∈ ChannelState.halting :: failing,
      Receives (s st c) ((doneFrame 0).conds .undriven) (doneFrame 0) ∧ (s st c).entries[0].epoch = 17 ∧
      (s st c).entries[0].state = st ∧ (s st c).entries[0].kind ≠ .get ∧ (s st c).entries[0].owner = some 0 ∧
      (s st c).channels[0].state = c ∧ (s st c).channels[0].live = 1) ∧
    (({ pushing with live := 2 } : Channel).live > 1) ∧ ({ pushing with signal := some 4 } : Channel).signal.isSome = true ∧
    pushing.signal = none := by
  subst h; unfold Receives; decide +kernel
theorem witness_DataLands (s : State)
    (h : s = receiving (requesting { sentEntry with kind := .get, length := 2 })) :
    Receives s (dataFrame.conds .undriven) dataFrame ∧ dataFrame.sendable = true ∧ s.entries[0].epoch = 17 ∧
    s.entries[0].state = .sent ∧ s.entries[0].kind = .get ∧ s.entries[0].length = 2 ∧ s.entries[0].buffer = some 0 := by
  subst h; unfold Receives; decide +kernel
theorem witness_HoldOutcomeHolds (s : EntryState → Nat → ChannelState → State)
    (h : s = fun st n c => receiving (ownedBy c { sentEntry with state := st, hold := n })) :
    (∀ st ∈ [EntryState.sent, .queued, .holding], ∀ c ∈ ChannelState.halting :: failing,
      (∀ o ∈ [(1 : BitVec 3), 2, 3, 4, 5, 6], Receives (s st 5 c) ((doneFrame o).conds .undriven) (doneFrame o)) ∧
      (s st 5 c).entries[0].state = st ∧ (s st 5 c).entries[0].epoch = 17 ∧ (s st 5 c).entries[0].owner = some 0 ∧
      (s st 5 c).entries[0].hold = (s st 5 c).loader.config.holdLimit ∧ (s st 5 c).channels[0].state = c) ∧
    (s .sent 4 .running).entries[0].hold < (s .sent 4 .running).loader.config.holdLimit ∧
    (∀ c : Fin 8, (s .sent 4 .running).entries[0].owner = some c → (s .sent 4 .running).channels[c].state ≠ .halting) := by
  subst h; unfold Receives; decide +kernel

/-! The engine and the loader -/

theorem witness_GrantMovesJob : up.engine.job = none ∧
    ((waiting up putJob).engine.job.map fun j => (j.phase, j.lastCycle)) = some (.requesting, false) ∧
    (∀ b ∈ [false, true], ((working up { putJob with lastCycle := b }).engine.job.map fun j => (j.phase, j.lastCycle)) =
      some (.moving, b)) ∧ ((waiting up putJob).engine.job.map fun j => decide (j.phase ≠ .moving)) = some true := by
  decide +kernel
theorem witness_BusCycleMovesBytes (j : Job) (h : j = { putJob with phase := .moving, length := 6 }) :
    (working (serving putOperation) j).engine.job = some j ∧ j.phase = .moving ∧
    Memory.wf (working (serving putOperation) j).mem = true ∧ (∀ c ∈ [((16777215 : Nat), (9 : Byte))], c.1 < 16777216) ∧
    (∀ a ∈ j.cycleAddresses, a < 16777216) ∧ j.moved + j.cycleLength < j.length ∧ j.kind = .write ∧
    ({ j with kind := .read } : Job).buffer = some 1 ∧
    ((working starting startRead).engine.job.map fun j => decide (j.phase = .moving ∧ j.kind = .read ∧ j.buffer = none ∧
      (∀ a ∈ j.cycleAddresses, a < 16777216) ∧ j.moved + j.cycleLength < j.length)) = some true := by subst h; decide +kernel
theorem witness_BusCycle_stops (j : Job) (h : j = { putJob with phase := .moving, address := 16777215, moved := 1 }) :
    (working up j).engine.job = some j ∧ (∃ a ∈ j.cycleAddresses, 16777216 ≤ a) ∧ up.engine.job = none ∧
    (∃ c ∈ [((16777216 : Nat), (9 : Byte))], 16777216 ≤ c.1) ∧ putJob.phase ≠ .moving := by subst h; decide +kernel
theorem witness_CyclesAndSlotWriteOrder (j : Job) (op : Operation)
    (h : j = Job.listed .write .responder 131072 72 (some 1) (.operation 0) (some 0))
    (g : op = { putOperation with mailboxSlot := some 0, mailboxSequence := some 3 }) : putJob.mailboxSlot = none ∧
    putJob.moved < putJob.length ∧ j.mailboxSlot = some 0 ∧ j.owner = .operation 0 ∧ (serving op).slots[0] = some op ∧
    op.length = some 3 ∧ op.mailboxSequence = some 3 ∧ putJob.buffer = some 1 ∧ j.buffer = some 1 ∧ j.length = 72 ∧
    j.address % 4 = 0 ∧ (∀ m ∈ [0, 60, 64, 68], ({ j with moved := m } : Job).moved % 4 = 0) := by subst h g; decide +kernel
/-- The window states in which an operation may end, and a window whose drain is then due. -/
def drainStates : List WindowState := [.opened, .parked, .closing]
def draining (w : WindowEntry) (st : WindowState) : WindowEntry :=
  { w with inUse := 1, state := st, quietWanted := st != .opened }

theorem witness_PutWriteEnds (s : WindowState → State) (j : Job) (g : j = { putJob with phase := .moving })
    (h : s = fun st => listing ((working (serving putOperation) putJob).setWindow 4 (draining memoryWindow st))) :
    (∀ st ∈ drainStates, (s st).engine.job = some j ∧ (s st).engine.responder ≠ [] ∧ (s st).engine.requester ≠ [] ∧
      (s st).slots[0] = some putOperation ∧ (s st).windows[4].state = st ∧ 1 ≤ (s st).windows[4].inUse) ∧
    j.phase = .moving ∧ j.owner = .operation 0 ∧ j.kind = .write ∧ (∀ a ∈ j.cycleAddresses, a < 16777216) ∧
    j.length ≤ j.moved + j.cycleLength ∧ putOperation.kind = .put ∧ putOperation.window = some 4 ∧
    putOperation.mailboxSlot = none ∧ (working (serving putOperation) putJob).engine.responder = [] := by
  subst g h; decide +kernel
theorem witness_ReadAndSlotWriteEnd (s u : WindowState → State) (j k : Job)
    (g : j = { putJob with kind := .read, phase := .moving }) (f : k = { slotJob with phase := .moving })
    (h : s = fun st => listing ((working (serving { putOperation with kind := .get }) j).setWindow 4 (draining memoryWindow st)))
    (d : u = fun st => listing ((working (serving slotOperation) slotJob).setWindow 4
      { draining mailboxWindow st with reserved := 1 })) :
    (∀ st ∈ drainStates, (s st).engine.job = some j ∧ (s st).windows[4].state = st ∧ 1 ≤ (s st).windows[4].inUse ∧
      (u st).engine.job = some k ∧ (u st).slots[0] = some slotOperation ∧ (u st).windows[4].state = st ∧
      1 ≤ (u st).windows[4].inUse ∧ (u st).windows[4].committed = 0) ∧
    j.kind = .read ∧ j.buffer = some 1 ∧ j.length ≤ j.moved + j.cycleLength ∧ k.kind = .write ∧
    k.length ≤ k.moved + k.cycleLength ∧ (∀ a ∈ j.cycleAddresses, a < 16777216) ∧
    (∀ a ∈ k.cycleAddresses, a < 16777216) ∧ slotOperation.mailboxSlot = some 0 ∧ slotOperation.kind = .put := by
  subst g f h d; decide +kernel
theorem witness_StagingAndLandingEnd (s : JobKind → EntryState → ChannelState → State) (j : JobKind → Job)
    (g : j = fun k => { stagingJob with kind := k, phase := .moving })
    (h : s = fun k st c => listing (working (ownedBy c { sentEntry with state := st, timer := .stopped }) (j k))) :
    (∀ k ∈ [JobKind.read, .write], ∀ st ∈ [EntryState.staging, .landing, .releasing],
      ∀ c ∈ ChannelState.halting :: failing, (s k st c).engine.job = some (j k) ∧ (s k st c).entries[0].state = st ∧
        (s k st c).entries[0].owner = some 0 ∧ (s k st c).channels[0].state = c) ∧
    (∀ c : Fin 8, (s .read .staging .running).entries[0].owner = some c →
      (s .read .staging .running).channels[c].state ≠ .halting) ∧
    (∀ k ∈ [JobKind.read, .write], (j k).owner = .entry 0 ∧ (j k).kind = k ∧ (j k).buffer = some 0 ∧
      (j k).phase = .moving ∧ (j k).length ≤ (j k).moved + (j k).cycleLength ∧
      (∀ a ∈ (j k).cycleAddresses, a < 16777216)) ∧
    (waiting up stagingJob).engine.job.map Job.phase = some .requesting := by subst g h; decide +kernel
theorem witness_JobFaultAnswersFault (s u : WindowState → State)
    (h : s = fun st => listing ((working (serving putOperation) putJob).setWindow 4 (draining memoryWindow st)))
    (f : u = fun st => listing ((waiting (serving slotOperation) slotJob).setWindow 4 { draining mailboxWindow st with reserved := 1 })) :
    (∀ st ∈ drainStates, (s st).engine.job.map Job.phase = some .moving ∧ (s st).slots[0] = some putOperation ∧
      (s st).windows[4].state = st ∧ 1 ≤ (s st).windows[4].inUse ∧ (u st).engine.job.map Job.phase = some .requesting ∧
      (u st).slots[0] = some slotOperation ∧ (u st).windows[4].state = st ∧ 1 ≤ (u st).windows[4].inUse) ∧
    putJob.owner = .operation 0 ∧ slotJob.owner = .operation 0 ∧ putOperation.localAddress = some 4112 ∧
    slotOperation.localAddress = some 131072 ∧ slotOperation.mailboxSlot = some 0 ∧
    ({ putOperation with kind := .get } : Operation).kind = .get := by subst h f; decide +kernel
theorem witness_ResetsClearBlocks : up.engine.job = none ∧
    ((working up { putJob with kind := .read }).engine.job.map fun j => (j.phase, j.kind)) = some (.moving, .read) ∧
    ((working up putJob).engine.job.map fun j => (j.phase, j.kind)) = some (.moving, .write) ∧
    Memory.wf (working up putJob).mem = true ∧ up.pins.resetHeld = false ∧ State.reset.pins.resetHeld = true := by
  decide +kernel
theorem witness_StartDecided (s : State)
    (h : s = working starting { startRead with moved := 40 }) : s.engine.job.map Job.owner = some .loader ∧
    s.engine.responder = [] ∧ s.engine.requester = [] ∧
    (s.engine.job.map fun j => decide (j.phase = .moving ∧ j.kind = .read ∧ j.buffer = none ∧
      (∀ a ∈ j.cycleAddresses, a < 16777216) ∧ j.length ≤ j.moved + j.cycleLength)) = some true ∧
    (waiting starting startRead).engine.job.map Job.phase = some .requesting ∧
    (∀ c ∈ [((16777215 : Nat), (9 : Byte))], c.1 < 16777216) := by subst h; decide +kernel
theorem witness_FrameRoundTrip : receive (putFrame.conds .undriven) = some putFrame ∧
    receive ((getOf 0).conds .startMark) = some (getOf 0) ∧ receive ((doneFrame 7).conds .bit1) = some (doneFrame 7) ∧
    receive (signalFrame.conds .bit0) = some signalFrame ∧ receive (dataFrame.conds .undriven) = some dataFrame ∧
    receive (({ putFrame with claim := ⟨false, 1, 5⟩ } : Frame).conds .undriven) = none ∧
    receive (putFrame.conds .abortMark) = none ∧ LineCond.undriven ≠ .abortMark ∧
    ([putFrame, getOf 0, signalFrame, dataFrame, doneFrame 7].map fun f => frameExtent (f.conds .undriven)) =
      [some 119, some 95, some 91, some 74, some 54] := by decide +kernel

/-! The invariants hold somewhere a step goes on from -/

/-- `NoticesOk` and the parts of the other predicates that a RUNNING station with work in hand shows. -/
theorem witness_HeldStaysAtReset : HeldInv up := fun h => by simp [up, State.reset] at h
theorem witness_NoticesStayWellFormed : NoticesOk (filled 31 true) := by unfold NoticesOk; decide +kernel
theorem witness_MemoryStaysCanonical : Memory.wf [(0, 1), (16777215, 2)] = true := by decide +kernel
theorem witness_LineStaysInStep : LineInv up := by
  refine ⟨witness_HeldStaysAtReset, ?_, ?_⟩
  · unfold LineOk; decide +kernel
  · exact ⟨by decide +kernel, by simp [up, State.reset, Engine.cleared], by simp [up, State.reset, Engine.cleared],
      by simp [up, State.reset, Engine.cleared], by decide +kernel⟩
theorem witness_EngineStaysInStep : EngineInv (waiting up putJob) := by
  refine ⟨fun h => by simp [waiting, up, State.reset] at h, ?_⟩
  refine ⟨rfl, ?_, ?_, ?_, ?_⟩
  · exact ⟨fun _ => ⟨_, rfl, rfl⟩, fun _ => rfl⟩
  · rintro j h
    have : j = { putJob with phase := .requesting } := by simpa [waiting] using h.symm
    subst this
    decide +kernel
  · simp [waiting, up, State.reset, Engine.cleared]
  · simp [waiting]
theorem witness_ChannelsKeepLaws : ChannelInv (requesting sentEntry) := by unfold ChannelInv ChannelOk; decide +kernel
theorem witness_RequestsStayOwned : RequestInv (requesting sentEntry) := by
  refine ⟨⟨fun h => by simp [requesting, up, State.reset, State.setChannel, State.setEntry, State.setBuffer] at h,
    by unfold LineOk; decide +kernel, ?_⟩, ?_⟩
  · exact ⟨by decide +kernel, by simp [requesting, up, State.reset, Engine.cleared, State.setChannel, State.setEntry, State.setBuffer],
      by simp [requesting, up, State.reset, Engine.cleared, State.setChannel, State.setEntry, State.setBuffer],
      by simp [requesting, up, State.reset, Engine.cleared, State.setChannel, State.setEntry, State.setBuffer], by decide +kernel⟩
  · exact @of_decide_eq_true _ (decideRequests (requesting sentEntry)) (by decide +kernel)
theorem witness_PoolKeepsCaps : PoolInv (requesting sentEntry) := by
  unfold PoolInv; decide +kernel

/-- `SlotOk` and `WindowOk` can be decided. -/
@[reducible] def decideSlot (s : State) (k : Fin 8) : Decidable (SlotOk s k) := by
  unfold SlotOk; split
  · exact inferInstance
  · refine @instDecidableAnd _ _ _ ?_
    split
    · refine @instDecidableAnd _ _ _ (@instDecidableAnd _ _ _ (@instDecidableAnd _ _ _ (@instDecidableAnd _ _ _ ?_)))
      split <;> exact inferInstance
    · exact inferInstance
@[reducible] def decideWindow (s : State) (w : Fin 32) : Decidable (WindowOk s w) := by
  unfold WindowOk
  refine @instDecidableAnd _ _ _ (@instDecidableAnd _ _ ?_ ?_) <;> split <;> exact inferInstance
@[reducible] def decideSlots (s : State) : Decidable (∀ k : Fin 8, SlotOk s k) :=
  @Nat.decidableForallFin 8 _ (decideSlot s)
@[reducible] def decideWindows (s : State) : Decidable (∀ w : Fin 32, WindowOk s w) :=
  @Nat.decidableForallFin 32 _ (decideWindow s)

/-- Station 3 writing a taken PUT to local memory. -/
def writing : State := working (serving putOperation) putJob

theorem witness_ServingStaysInStep : ServeInv writing := by
  refine ⟨⟨fun h => by simp [writing, working, serving, up, State.reset, State.setWindow, State.setSlot, State.setReplay,
      State.setBuffer] at h, by unfold LineOk; decide +kernel, ?_⟩, by decide +kernel, ?_, ?_, ?_⟩
  · refine ⟨by decide +kernel, ?_, ?_, ?_, by decide +kernel⟩
    · rintro j h ho
      have : j = { putJob with phase := .moving } := by simpa [writing, working] using h.symm
      subst this
      cases ho
    · rintro j h
      cases h
    · rintro j h
      cases h
  · exact @of_decide_eq_true _ (decideSlots writing) (by decide +kernel)
  · exact @of_decide_eq_true _ (decideWindows writing) (by decide +kernel)
  · rintro h k hh
    cases hh

theorem writing_executingPut : ∀ (n : Fin 512) (k : Fin 8), executingPut writing n k = decide (n = 82 ∧ k = 0) := by
  decide +kernel
theorem witness_ReplayFollowsPuts : ReplayInv writing := by
  refine ⟨witness_ServingStaysInStep, ?_, ?_, ?_⟩
  · intro n
    have h : writing.replay[n].state = .pending ↔ n = 82 := by
      have e : writing.replay = (Vector.replicate 512 ReplayRecord.cleared).set 82 ⟨.pending, 9, 17, none⟩ := rfl
      by_cases hn : n = 82
      · subst hn
        simp [e]
      · have hv : (82 : Nat) ≠ n.val := fun hv => hn (Fin.ext hv.symm)
        simp [e, Vector.getElem_set_ne _ _ hv, hn, ReplayRecord.cleared]
    rw [h]
    simp [writing_executingPut]
  · intro n k k' h h'
    rw [writing_executingPut, decide_eq_true_eq] at h h'
    rw [h.2, h'.2]
  · intro n k op h hs
    rw [writing_executingPut, decide_eq_true_eq] at h
    obtain ⟨rfl, rfl⟩ := h
    have : op = putOperation := by
      have e : writing.slots[(0 : Fin 8)] = some putOperation := by decide +kernel
      rw [e] at hs
      exact (Option.some.inj hs).symm
    subst this
    decide +kernel

end Sys2Proof.Machine.Tests
end

section
/-! What the predicates of the line, the loader and the responder side rest on, and the steps that keep them: a step that
touches none of it (`Quiet`), a step that keeps them whole (`Kept`), and the engine's shared operations. -/

namespace Sys2Proof.Machine

/-! ### The engine's jobs by their owners -/

/-- Every listed job works for the unit whose list it is in (R151). -/
def OwnersOk (e : Engine) : Prop :=
  (∀ j ∈ e.responder, ∃ k, j.owner = .operation k) ∧ ∀ j ∈ e.requester, ∃ i, j.owner = .entry i

/-- The started job is the Start Loader's (R160). -/
def LoaderJob (e : Engine) : Prop := ∃ j, e.job = some j ∧ j.owner = .loader

/-- How many jobs of an engine, listed or started, are the operation's in slot `k`. -/
def jobsOf (e : Engine) (k : Fin 8) : Nat :=
  (e.responder.countP fun j => j.owner == .operation k) + (e.job.map Job.owner == some (.operation k)).toNat

theorem operationJobs_eq (s : State) (k : Fin 8) : operationJobs s k = jobsOf s.engine k := rfl

/-- The lists keep their owners, and no job of the loader is started anew. -/
structure OwnersKept (e e' : Engine) : Prop where
  owners : OwnersOk e → OwnersOk e'
  loader : OwnersOk e → LoaderJob e' → LoaderJob e

namespace OwnersKept

theorem refl (e : Engine) : OwnersKept e e := ⟨id, fun _ h => h⟩

theorem trans {e e' e'' : Engine} (h : OwnersKept e e') (g : OwnersKept e' e'') : OwnersKept e e'' :=
  ⟨fun ho => g.owners (h.owners ho), fun ho hl => h.loader ho (g.loader (h.owners ho) hl)⟩

end OwnersKept

/-- The owners are kept, and every operation has as many jobs as before. -/
structure EngineMove (e e' : Engine) : Prop extends OwnersKept e e' where
  jobs : OwnersOk e → ∀ k, jobsOf e' k = jobsOf e k

namespace EngineMove

theorem refl (e : Engine) : EngineMove e e := ⟨.refl e, fun _ _ => rfl⟩

theorem of_eq {e e' : Engine} (h : e' = e) : EngineMove e e' := h ▸ refl e

theorem trans {e e' e'' : Engine} (h : EngineMove e e') (g : EngineMove e' e'') : EngineMove e e'' :=
  ⟨h.toOwnersKept.trans g.toOwnersKept, fun ho k => (g.jobs (h.owners ho) k).trans (h.jobs ho k)⟩

/-- The requester list shrinks or stays, and nothing else of the lists and the started job's owner changes. -/
theorem of_requester_subset {e e' : Engine} (hr : e'.responder = e.responder)
    (hj : e'.job.map Job.owner = e.job.map Job.owner) (hq : e'.requester ⊆ e.requester) : EngineMove e e' where
  owners := fun ho => ⟨hr ▸ ho.1, fun j h => ho.2 j (hq h)⟩
  loader := by
    rintro - ⟨j, hj', hl⟩
    rw [hj', Option.map_some, hl, eq_comm, Option.map_eq_some_iff] at hj
    exact hj
  jobs := fun _ k => by simp only [jobsOf, hr, hj]

end EngineMove

/-! ### Selecting and queueing jobs -/

@[simp] theorem startJob_responder (s : State) (j : Job) : (s.startJob j).engine.responder = s.engine.responder := by
  unfold State.startJob; split <;> rfl
@[simp] theorem startJob_requester (s : State) (j : Job) : (s.startJob j).engine.requester = s.engine.requester := by
  unfold State.startJob; split <;> rfl
@[simp] theorem startJob_owner (s : State) (j : Job) : (s.startJob j).engine.job.map Job.owner = some j.owner := by
  unfold State.startJob; split <;> rfl

/-- The loader's job is started exactly where the started job's owner is the loader. -/
theorem loaderJob_iff (e : Engine) : LoaderJob e ↔ e.job.map Job.owner = some .loader := by
  simp [LoaderJob]

/-- The arbiter moves the head of a list to the engine: nobody's jobs grow or fall in number (R152). -/
theorem selectJob_move (s : State) : EngineMove s.engine s.selectJob.engine := by
  unfold State.selectJob
  split
  case h_1 => exact .refl _
  case h_2 hnone =>
    split
    case h_1 j rest hr =>
      refine ⟨⟨fun ho => ?_, fun ho hl => ?_⟩, fun ho k => ?_⟩
      · rw [OwnersOk, startJob_responder, startJob_requester]
        exact ⟨fun j' h => ho.1 j' (hr ▸ List.mem_cons_of_mem _ h), ho.2⟩
      · obtain ⟨k, hk⟩ := ho.1 j (hr ▸ List.mem_cons_self)
        simp [loaderJob_iff, hk] at hl
      · simp [jobsOf, hr, hnone, List.countP_cons, Bool.toNat, Bool.cond_eq_ite]
    case h_2 j rest hr hq =>
      refine ⟨⟨fun ho => ?_, fun ho hl => ?_⟩, fun ho k => ?_⟩
      · rw [OwnersOk, startJob_responder, startJob_requester]
        exact ⟨ho.1, fun j' h => ho.2 j' (hq ▸ List.mem_cons_of_mem _ h)⟩
      · obtain ⟨i, hi⟩ := ho.2 j (hq ▸ List.mem_cons_self)
        simp [loaderJob_iff, hi] at hl
      · obtain ⟨i, hi⟩ := ho.2 j (hq ▸ List.mem_cons_self)
        simp [jobsOf, hnone, hi]
    case h_3 => exact .refl _

/-- A queued responder job is its owner's one more job. -/
theorem queueResponder_jobs (s : State) (j : Job) (k : Fin 8) (hj : j.owner = .operation k) (ho : OwnersOk s.engine)
    (k' : Fin 8) : jobsOf (s.queueResponder j).engine k' = jobsOf s.engine k' + (k == k').toNat := by
  have hq : OwnersOk { s.engine with responder := s.engine.responder ++ [j] } :=
    ⟨fun j' h => by
      rcases List.mem_append.mp h with h | h
      · exact ho.1 j' h
      · exact ⟨k, by rw [List.mem_singleton.mp h, hj]⟩, ho.2⟩
  have hm := (selectJob_move (s.setEngine { s.engine with responder := s.engine.responder ++ [j] })).jobs hq k'
  rw [State.queueResponder, hm]
  simp [jobsOf, hj, List.countP_append, List.countP_cons, Bool.toNat, Bool.cond_eq_ite]
  omega

theorem queueResponder_owners (s : State) (j : Job) (k : Fin 8) (hj : j.owner = .operation k) :
    OwnersKept s.engine (s.queueResponder j).engine := by
  refine OwnersKept.trans (e' := { s.engine with responder := s.engine.responder ++ [j] })
    ⟨fun ho => ⟨fun j' h => ?_, ho.2⟩, fun _ h => h⟩ (selectJob_move (s.setEngine _)).toOwnersKept
  rcases List.mem_append.mp h with h | h
  · exact ho.1 j' h
  · exact ⟨k, by rw [List.mem_singleton.mp h, hj]⟩

/-- A queued requester job is no operation's. -/
theorem queueRequester_move (s : State) (j : Job) (i : Fin 16) (hj : j.owner = .entry i) :
    EngineMove s.engine (s.queueRequester j).engine := by
  refine EngineMove.trans (e' := { s.engine with requester := s.engine.requester ++ [j] })
    ⟨⟨fun ho => ⟨ho.1, fun j' h => ?_⟩, fun _ h => h⟩, fun _ _ => rfl⟩ (selectJob_move (s.setEngine _))
  rcases List.mem_append.mp h with h | h
  · exact ho.2 j' h
  · exact ⟨i, by rw [List.mem_singleton.mp h, hj]⟩

/-! ### The predicates as they are kept -/

/-- The line's and the loader's predicate without what it says of RESET#. -/
def LineCore (s : State) : Prop := LineOk s.line ∧ StartOk s

theorem startOk_iff (s : State) : StartOk s ↔
    (s.line.state = .offline ↔ s.loader.station ≠ .running) ∧ (LoaderJob s.engine → s.loader.station = .starting) ∧
    OwnersOk s.engine ∧ (s.loader.reason.isSome = true ↔ s.loader.station = .startFailed) := by
  simp only [StartOk, LoaderJob, OwnersOk, forall_exists_index, and_imp, and_assoc]

theorem LineCore.owners {s : State} (h : LineCore s) : OwnersOk s.engine := ((startOk_iff s).mp h.2).2.2.1

/-- The responder side's predicate beside the line's. -/
def ServeOk (s : State) : Prop :=
  s.sendOrder.Nodup ∧ (∀ k : Fin 8, SlotOk s k) ∧ (∀ w : Fin 32, WindowOk s w) ∧ ResponseInHand s

theorem lineInv_iff (s : State) : LineInv s ↔ HeldInv s ∧ LineCore s := Iff.rfl

theorem serveInv_iff (s : State) : ServeInv s ↔ HeldInv s ∧ LineCore s ∧ ServeOk s := by
  simp only [ServeInv, LineInv, LineCore, ServeOk, and_assoc]

/-- RESET# stands as before, and the line's predicate and with it the responder side's are kept. -/
structure Kept (s t : State) : Prop where
  held : t.pins.resetHeld = s.pins.resetHeld
  line : LineCore s → LineCore t
  serve : LineCore s → ServeOk s → ServeOk t

namespace Kept

theorem refl (s : State) : Kept s s := ⟨rfl, id, fun _ h => h⟩

theorem trans {s t u : State} (h : Kept s t) (g : Kept t u) : Kept s u :=
  ⟨g.held.trans h.held, fun hl => g.line (h.line hl), fun hl hs => g.serve (h.line hl) (h.serve hl hs)⟩

end Kept

/-- The line's predicate survives a step that leaves the line's state OFFLINE or not, the loader's state and the jobs'
owners alone. -/
theorem lineCore_of {s t : State} (h : LineCore s) (hline : LineOk t.line)
    (hoff : t.line.state = .offline ↔ s.line.state = .offline) (hst : t.loader.station = s.loader.station)
    (hre : t.loader.reason = s.loader.reason) (he : OwnersKept s.engine t.engine) : LineCore t := by
  obtain ⟨-, hs⟩ := h
  obtain ⟨h1, h2, h3, h4⟩ := (startOk_iff s).mp hs
  refine ⟨hline, (startOk_iff t).mpr ⟨?_, fun hl => ?_, he.owners h3, ?_⟩⟩
  · rw [hoff, hst]; exact h1
  · rw [hst]; exact h2 (he.loader h3 hl)
  · rw [hre, hst]; exact h4

/-- The responder side's predicate rests on the windows, the slots, the send order, the line and how many jobs each
operation has. -/
theorem serveOk_congr {s t : State} (hw : t.windows = s.windows) (hs : t.slots = s.slots)
    (ho : t.sendOrder = s.sendOrder) (hl : t.line = s.line) (hj : ∀ k, jobsOf t.engine k = jobsOf s.engine k)
    (h : ServeOk s) : ServeOk t := by
  obtain ⟨hnodup, hslots, hwins, hhand⟩ := h
  refine ⟨ho ▸ hnodup, fun k => ?_, fun w => ?_, ?_⟩
  · have := hslots k
    simp only [SlotOk, operationJobs_eq] at this ⊢
    rw [hs, hj, ho, hw]
    exact this
  · have := hwins w
    simp only [WindowOk, executingCount, executing] at this ⊢
    rw [hs, hw]
    exact this
  · simp only [ResponseInHand, hl, ho]
    exact hhand

/-- `t` differs from `s` in nothing that these predicates rest on but in where an operation's job stands. -/
structure Quiet (s t : State) : Prop where
  held : t.pins.resetHeld = s.pins.resetHeld
  windows : t.windows = s.windows
  slots : t.slots = s.slots
  sendOrder : t.sendOrder = s.sendOrder
  line : t.line = s.line
  station : t.loader.station = s.loader.station
  reason : t.loader.reason = s.loader.reason
  engine : EngineMove s.engine t.engine

namespace Quiet

theorem refl (s : State) : Quiet s s := ⟨rfl, rfl, rfl, rfl, rfl, rfl, rfl, .refl _⟩

theorem trans {s t u : State} (h : Quiet s t) (g : Quiet t u) : Quiet s u where
  held := g.held.trans h.held
  windows := g.windows.trans h.windows
  slots := g.slots.trans h.slots
  sendOrder := g.sendOrder.trans h.sendOrder
  line := g.line.trans h.line
  station := g.station.trans h.station
  reason := g.reason.trans h.reason
  engine := h.engine.trans g.engine

theorem kept {s t : State} (h : Quiet s t) : Kept s t where
  held := h.held
  line := fun hl => lineCore_of hl (h.line ▸ hl.1) (by rw [h.line]) h.station h.reason h.engine.toOwnersKept
  serve := fun hl => serveOk_congr h.windows h.slots h.sendOrder h.line (h.engine.jobs hl.owners)

/-- The requester side's shared operations, whose jobs lists only shrink. -/
theorem of_requester {s t : State} (h : RequesterFrame s t) (hq : t.engine.requester ⊆ s.engine.requester) : Quiet s t where
  held := by rw [h.pins]
  windows := h.windows
  slots := h.slots
  sendOrder := h.sendOrder
  line := h.line
  station := by rw [h.loader]
  reason := by rw [h.loader]
  engine := .of_requester_subset h.responder (by rw [h.job]) hq

theorem selectJob (s : State) : Quiet s s.selectJob := by
  have hm := selectJob_move s
  obtain ⟨e, h⟩ := selectJob_eq s
  rw [h] at hm ⊢
  exact ⟨rfl, rfl, rfl, rfl, rfl, rfl, rfl, hm⟩

theorem queueRequester (s : State) (j : Job) (i : Fin 16) (hj : j.owner = .entry i) : Quiet s (s.queueRequester j) := by
  have hm := queueRequester_move s j i hj
  obtain ⟨e, h⟩ := queueRequester_eq s j
  rw [h] at hm ⊢
  exact ⟨rfl, rfl, rfl, rfl, rfl, rfl, rfl, hm⟩

end Quiet

/-- Another line state, which keeps the line's own laws and the head of the send order in hand. -/
theorem kept_setLine {s : State} {l : Line} (hok : LineOk s.line → LineOk l)
    (hoff : l.state = .offline ↔ s.line.state = .offline)
    (hhand : ∀ h k, l.hand = some h → h.owner = .response k → l.state = .contending ∨ l.state = .sending →
      s.line.hand = some h ∧ (s.line.state = .contending ∨ s.line.state = .sending) ∨ s.sendOrder.head? = some k) :
    Kept s (s.setLine l) where
  held := rfl
  line := fun hl => lineCore_of hl (hok hl.1) hoff rfl rfl (.refl _)
  serve := by
    rintro - ⟨hn, hs, hw, hh⟩
    refine ⟨hn, hs, hw, fun h k hl ho hst => ?_⟩
    rcases hhand h k hl ho hst with ⟨hl', hst'⟩ | hd
    · exact hh h k hl' ho hst'
    · exact hd

end Sys2Proof.Machine
end

section
/-! The requester side is quiet: an entry's and a channel's events leave the responder side, the line and the loader as
they were, and take jobs off the requester list alone. -/

namespace Sys2Proof.Machine

/-! ### The engine after a report -/

@[simp] theorem endOfPass_engine (s : State) (c : Fin 8) : (s.endOfPass c).engine = s.engine := by
  unfold State.endOfPass; split <;> rfl
@[simp] theorem lowerLive_engine (s : State) (c : Fin 8) : (s.lowerLive c).engine = s.engine := rfl
@[simp] theorem settleHalting_engine (s : State) (c : Fin 8) : (s.settleHalting c).engine = s.engine := by
  unfold State.settleHalting; split <;> rfl
@[simp] theorem reportFreed_engine (s : State) (c : Fin 8) : (s.reportFreed c).engine = s.engine := by
  simp [State.reportFreed]
@[simp] theorem reportComplete_engine (s : State) (c : Fin 8) : (s.reportComplete c).engine = s.engine := by
  unfold State.reportComplete
  split
  · split
    · split
      · rfl
      · simp
    · rfl
  all_goals simp
@[simp] theorem completeEntry_engine (s : State) (i : Fin 16) : (s.completeEntry i).engine = s.engine := by
  unfold State.completeEntry; split <;> simp [entryFreed_eq]
@[simp] theorem dropEntry_engine (s : State) (i : Fin 16) : (s.dropEntry i).engine = s.engine := by
  unfold State.dropEntry; split <;> simp [entryFreed_eq]
@[simp] theorem queueTail_engine (s : State) (i : Fin 16) (e : Entry) : (s.queueTail i e).engine = s.engine := rfl

/-! ### Quiet operations -/

namespace Quiet

theorem of_engine_eq {s t : State} (h : RequesterFrame s t) (he : t.engine = s.engine) : Quiet s t :=
  of_requester h (by rw [he]; exact List.Subset.refl _)

theorem setChannel (s : State) (c : Fin 8) (r : Channel) : Quiet s (s.setChannel c r) :=
  of_engine_eq (.setChannel s c r) rfl

theorem setEntry (s : State) (i : Fin 16) (e : Entry) : Quiet s (s.setEntry i e) := of_engine_eq (.setEntry s i e) rfl

theorem post (s : State) (n : Notice) : Quiet s (s.post n) := of_engine_eq (.post s n) rfl

theorem giveBuffer (s : State) (b : Option (Fin 24)) (o : BufferOwner) : Quiet s (s.giveBuffer b o) := by
  cases b <;> exact ⟨rfl, rfl, rfl, rfl, rfl, rfl, rfl, .refl _⟩

theorem fillBuffer (s : State) (b : Option (Fin 24)) (p : List Byte) : Quiet s (s.fillBuffer b p) := by
  cases b <;> exact ⟨rfl, rfl, rfl, rfl, rfl, rfl, rfl, .refl _⟩

theorem freeEntry (s : State) (i : Fin 16) : Quiet s (s.freeEntry i) :=
  of_engine_eq (.freeEntry s i) (by simp [entryFreed_eq])

theorem releaseEntries (s : State) (f : Fin 16 → Release) : Quiet s (s.releaseEntries f) :=
  of_requester (.releaseEntries s f) (List.filter_subset_self _)

theorem lowerLive (s : State) (c : Fin 8) : Quiet s (s.lowerLive c) := of_engine_eq (.lowerLive s c) rfl

theorem settleHalting (s : State) (c : Fin 8) : Quiet s (s.settleHalting c) :=
  of_engine_eq (.settleHalting s c) (by simp)

theorem completeEntry (s : State) (i : Fin 16) : Quiet s (s.completeEntry i) :=
  of_engine_eq (.completeEntry s i) (by simp)

theorem dropEntry (s : State) (i : Fin 16) : Quiet s (s.dropEntry i) := of_engine_eq (.dropEntry s i) (by simp)

theorem queueTail (s : State) (i : Fin 16) (e : Entry) : Quiet s (s.queueTail i e) := of_engine_eq (.queueTail s i e) rfl

theorem haltChannel (s : State) (c : Fin 8) (code : FaultCode) (off : Nat) (sig : Bool) :
    Quiet s (s.haltChannel c code off sig) :=
  (releaseEntries s _).trans (setChannel _ _ _)

theorem reportFailure (s : State) (c : Fin 8) (code : FaultCode) (off : Nat) (sig : Bool) :
    Quiet s (s.reportFailure c code off sig) := by
  unfold State.reportFailure
  split
  · exact (haltChannel s c code off sig).trans (settleHalting _ _)
  · exact (haltChannel s c code off sig).trans (settleHalting _ _)
  · exact (haltChannel s c code off sig).trans (settleHalting _ _)
  · exact (lowerLive s c).trans (settleHalting _ _)
  all_goals exact lowerLive s c

theorem failEntry (s : State) (i : Fin 16) (code : FaultCode) : Quiet s (s.failEntry i code) := by
  unfold State.failEntry
  split
  · exact freeEntry s i
  · exact (freeEntry s i).trans (reportFailure _ _ _ _ _)

theorem retryEntry (s : State) (i : Fin 16) : Quiet s (s.retryEntry i) := by
  unfold State.retryEntry
  split
  · split
    · exact dropEntry s i
    · exact queueTail s i _
  · exact failEntry s i _

theorem holdEntry (s : State) (i : Fin 16) : Quiet s (s.holdEntry i) := by
  unfold State.holdEntry
  split
  · split
    · exact dropEntry s i
    · exact setEntry s i _
  · exact failEntry s i _

theorem sendEntry (s : State) (i : Fin 16) : Quiet s (s.sendEntry i) :=
  of_engine_eq (.sendEntry s i) (by unfold State.sendEntry; split <;> rfl)

theorem entrySent (s : State) (i : Fin 16) (taken : Bool) : Quiet s (s.entrySent i taken) := by
  unfold State.entrySent
  split
  · exact freeEntry s i
  · split
    · exact setEntry s i _
    · exact retryEntry s i

theorem entryClashed (s : State) (i : Fin 16) : Quiet s (s.entryClashed i) := by
  unfold State.entryClashed
  split
  · exact freeEntry s i
  · split
    · exact dropEntry s i
    · exact of_engine_eq (.queueHead s i) rfl

theorem entryRoundLost (s : State) (i : Fin 16) : Quiet s (s.entryRoundLost i) := by
  unfold State.entryRoundLost
  split
  · exact freeEntry s i
  · exact refl s

theorem entryJobEnd (s : State) (i : Fin 16) (faulted : Bool) : Quiet s (s.entryJobEnd i faulted) := by
  unfold State.entryJobEnd
  split
  · exact freeEntry s i
  · split
    · exact failEntry s i _
    · split
      · exact dropEntry s i
      · exact queueTail s i _
  · split
    · exact failEntry s i _
    · exact completeEntry s i
  all_goals exact refl s

theorem settleDone (s : State) (i : Fin 16) (o : DoneOutcome) : Quiet s (s.settleDone i o) := by
  unfold State.settleDone
  split
  · exact completeEntry s i
  · exact failEntry s i _
  · exact failEntry s i _
  · exact failEntry s i _
  · exact holdEntry s i
  · exact holdEntry s i
  · exact failEntry s i _

theorem takeAnswer (s : State) (a : Answer) : Quiet s (s.takeAnswer a) := by
  have hun : ∀ i, Quiet s (s.unqueue i) := fun i => ⟨rfl, rfl, rfl, rfl, rfl, rfl, rfl, .refl _⟩
  unfold State.takeAnswer
  split
  · cases a with
    | done t o => exact (hun _).trans (settleDone _ _ _)
    | data t p =>
      exact (hun _).trans (((fillBuffer _ _ _).trans (setEntry _ _ _)).trans (queueRequester _ _ (tagEntry t) rfl))
  · exact refl s

theorem launch (s : State) (i : Fin 16) (e : Entry) : Quiet s (s.launch i e) := by
  unfold State.launch
  split
  · exact queueRequester s _ i rfl
  all_goals exact ⟨rfl, rfl, rfl, rfl, rfl, rfl, rfl, .refl _⟩

theorem formData (s : State) (c : Fin 8) (i : Fin 16) : Quiet s (s.formData c i) := by
  have hp : ∀ u : State, Quiet u { u with pointer := c } := fun _ => ⟨rfl, rfl, rfl, rfl, rfl, rfl, rfl, .refl _⟩
  exact ((((giveBuffer s _ _).trans (setEntry _ _ _)).trans (hp _)).trans (setChannel _ _ _)).trans (launch _ _ _)

theorem formSignal (s : State) (c : Fin 8) (i : Fin 16) : Quiet s (s.formSignal c i) := by
  have hp : ∀ u : State, Quiet u { u with pointer := c } := fun _ => ⟨rfl, rfl, rfl, rfl, rfl, rfl, rfl, .refl _⟩
  exact (((setEntry s _ _).trans (hp _)).trans (setChannel _ _ _)).trans (launch _ _ _)

end Quiet

/-! ### The requester side's events -/

theorem execFormation_quiet {s t : State} (h : execFormation s = .next t) : Quiet s t := by
  unfold execFormation at h
  split at h
  · split at h <;> cases h
    · exact .formData _ _ _
    · exact .refl _
  all_goals cases h; exact .refl _

theorem execSignalFormation_quiet {s t : State} (h : execSignalFormation s = .next t) : Quiet s t := by
  unfold execSignalFormation at h
  split at h
  · split at h <;> cases h
    · exact .formSignal _ _ _
    · exact .refl _
  all_goals cases h; exact .refl _

theorem execResponseTimerExpiry_quiet {s t : State} {i : Fin 16} (h : execResponseTimerExpiry i s = .next t) :
    Quiet s t := by
  unfold execResponseTimerExpiry at h
  split at h <;> cases h
  · exact .retryEntry _ _
  · exact .refl _

theorem execHoldTimerExpiry_quiet {s t : State} {i : Fin 16} (h : execHoldTimerExpiry i s = .next t) : Quiet s t := by
  unfold execHoldTimerExpiry at h
  split at h <;> cases h
  · exact .queueTail _ _ _
  · exact .refl _

theorem execPaceAsserted_quiet {s t : State} {n : Fin 4} (h : execPaceAsserted n s = .next t) : Quiet s t := by
  unfold execPaceAsserted at h
  split at h <;> cases h
  · exact .refl _
  · exact ⟨rfl, rfl, rfl, rfl, rfl, rfl, rfl, .refl _⟩

theorem execPaceDeasserted_quiet {s t : State} {n : Fin 4} (h : execPaceDeasserted n s = .next t) : Quiet s t := by
  cases h
  exact ⟨rfl, rfl, rfl, rfl, rfl, rfl, rfl, .refl _⟩

/-! ### The port's part of a command -/

/-- A named command keeps what its owner's part keeps from the state with the code in CMD. -/
theorem takeCommand_kept {code : Word} {owner : State → State × Result} (h : ∀ u, Kept u (owner u).1) (s : State) :
    Kept s (takeCommand code owner s) := by
  have hq : ∀ (u : State) (c : Word) (r : Result), Quiet u { u with cmd := c, result := r } :=
    fun _ _ _ => ⟨rfl, rfl, rfl, rfl, rfl, rfl, rfl, .refl _⟩
  unfold takeCommand
  split
  · exact .refl s
  · split
    · exact ((hq s code s.result).kept.trans (h _)).trans (hq _ _ _).kept
    · exact (hq _ _ _).kept

/-- A channel command keeps what its act on a record keeps. -/
theorem onChannel_quiet {taken : ChannelState → Bool} {act : Fin 8 → Channel → State → State × Result}
    (h : ∀ c r u, Quiet u (act c r u).1) (s : State) : Quiet s (onChannel taken act s).1 := by
  unfold onChannel
  split
  · split
    · exact h _ _ _
    · exact .refl s
  · exact .refl s

theorem chLoad_quiet (s : State) : Quiet s (chLoad s).1 :=
  onChannel_quiet (fun c r u => by split; exacts [.setChannel _ _ _, .refl _]) s

theorem chStart_quiet (s : State) : Quiet s (chStart s).1 := onChannel_quiet (fun _ _ _ => .setChannel _ _ _) s

theorem chAbort_quiet (s : State) : Quiet s (chAbort s).1 :=
  onChannel_quiet (fun _ _ u => ((Quiet.releaseEntries u _).trans (.setChannel _ _ _)).trans (.post _ _)) s

theorem chClear_quiet (s : State) : Quiet s (chClear s).1 := onChannel_quiet (fun _ _ _ => .setChannel _ _ _) s

theorem chQuery_quiet (s : State) : Quiet s (chQuery s).1 :=
  onChannel_quiet (fun _ _ _ => ⟨rfl, rfl, rfl, rfl, rfl, rfl, rfl, .refl _⟩) s

/-- The writes of the port that no owner takes change the notices, the argument words, CMD and RESULT alone. -/
theorem takeUnknown_quiet (code : Word) (s : State) : Quiet s (takeUnknown code s) := by
  unfold takeUnknown; split <;> exact ⟨rfl, rfl, rfl, rfl, rfl, rfl, rfl, .refl _⟩

theorem portPop_quiet (s : State) : Quiet s (portPop s) := by
  unfold portPop; split <;> exact ⟨rfl, rfl, rfl, rfl, rfl, rfl, rfl, .refl _⟩

theorem portEnable_quiet (value : Word) (enables : BitVec 4) (s : State) : Quiet s (portEnable value enables s) := by
  unfold portEnable
  split
  · exact .refl s
  · split <;> exact ⟨rfl, rfl, rfl, rfl, rfl, rfl, rfl, .refl _⟩

theorem portArgument_quiet (position : Nat) (value : Word) (enables : BitVec 4) (s : State) :
    Quiet s (portArgument position value enables s) := by
  unfold portArgument
  split
  · exact .refl s
  · split <;> exact ⟨rfl, rfl, rfl, rfl, rfl, rfl, rfl, .refl _⟩

end Sys2Proof.Machine
end

section
/-! The line's own events keep its laws, and the loader's decision takes the line out of OFFLINE. -/

namespace Sys2Proof.Machine

/-! ### The line's laws, event by event -/

/-- A frame in hand, or none, for an idle line: the abort mark is over. -/
theorem lineOk_offered {l : Line} (h : LineOk l) (hst : l.state = .idle) (o : Option Hand) :
    LineOk (match o with
      | none => { l with aborting := false }
      | some f => { l with state := .contending, hand := some f, aborting := false }) := by
  obtain ⟨h1, h2, h3, h4, h5, h6, h7, h8⟩ := h
  cases o <;> simp_all [LineOk]

/-- The winner's frame is received by the loser of a round (R132, R135). -/
theorem lineOk_roundLost {l : Line} (h : LineOk l) (hst : l.state = .contending) :
    LineOk { l with state := .receiving, hand := none, rx := .receiving } := by
  obtain ⟨h1, h2, h3, h4, h5, h6, h7, h8⟩ := h
  simp_all [LineOk]

theorem lineOk_roundWon {l : Line} (h : LineOk l) (hst : l.state = .contending) : LineOk { l with state := .sending } := by
  obtain ⟨h1, h2, h3, h4, h5, h6, h7, h8⟩ := h
  simp_all [LineOk]

theorem lineOk_sent {l : Line} (h : LineOk l) (hst : l.state = .sending) (own : Station) :
    LineOk { l with state := .idle, lastWinner := own, clashes := 0, hand := none } := by
  obtain ⟨h1, h2, h3, h4, h5, h6, h7, h8⟩ := h
  simp_all [LineOk, Config.silentClashes]

/-- The sixteenth clash silences the station, and no clash comes after it (R141). -/
theorem lineOk_afterClash {l : Line} (h : LineOk l) (hst : l.state = .sending) : LineOk l.afterClash := by
  obtain ⟨h1, h2, h3, h4, h5, h6, h7, h8⟩ := h
  have hlt : l.clashes < 16 := by
    have : l.clashes ≠ Config.silentClashes := fun e => by simp [hst] at h4; exact h4 e
    simp only [Config.silentClashes] at this h3
    omega
  have hrx : l.rx = .nothing := h6 (.inr (.inr hst))
  have hj : l.joinTimer = none := by simpa [hst] using h2
  by_cases hs : 16 ≤ l.clashes + 1
  · have : l.clashes + 1 = 16 := by omega
    simp [LineOk, Line.afterClash, Config.silentClashes, hrx, hj, this]
  · have : l.clashes + 1 ≤ 16 := by omega
    have hne : ¬ l.clashes = 15 := by omega
    simp [LineOk, Line.afterClash, Config.silentClashes, hrx, hj, hs, this, hne]

theorem lineOk_afterMark {l : Line} (h : LineOk l) (seen : LineCond) : LineOk (l.afterMark seen) := by
  unfold Line.afterMark
  split
  · exact h
  · split
    case h_1 hst => obtain ⟨h1, h2, h3, h4, h5, h6, h7, h8⟩ := h; simp_all [LineOk]
    case h_2 hst => obtain ⟨h1, h2, h3, h4, h5, h6, h7, h8⟩ := h; simp_all [LineOk]
    case h_3 hst => obtain ⟨h1, h2, h3, h4, h5, h6, h7, h8⟩ := h; simp_all [LineOk]
    all_goals exact h

/-- A good frame's receipt stands in the place of the receipt under way (R124). -/
theorem lineOk_good {l : Line} (h : LineOk l) (hrx : l.rx = .receiving) (sender : Station) (accept : Bool) :
    LineOk { l with rx := .good sender accept } := by
  obtain ⟨h1, h2, h3, h4, h5, h6, h7, h8⟩ := h
  have hoff : l.state ≠ .offline := fun e => by simp [h5 e, Line.cleared] at hrx
  simp_all [LineOk]

theorem lineOk_joined {l : Line} (h : LineOk l) (hst : l.state = .joining) :
    LineOk { l with state := .idle, joinTimer := none, rx := .nothing, aborting := false } := by
  obtain ⟨h1, h2, h3, h4, h5, h6, h7, h8⟩ := h
  simp_all [LineOk]

theorem lineOk_restarted {l : Line} (h : LineOk l) (hst : l.state = .silent) :
    LineOk { l with state := .joining, lastWinner := 31, clashes := 0, joinTimer := some 0 } := by
  obtain ⟨h1, h2, h3, h4, h5, h6, h7, h8⟩ := h
  simp_all [LineOk, Config.silentClashes]

/-! ### The line at a frame's end -/

/-- A frame's end changes the line and, with LINE_JOINED, the notices alone. -/
theorem endFrame_quiet (s : State) : Quiet (s.setLine s.endFrame.line) s.endFrame := by
  have h : ∃ l n, s.endFrame = { s with line := l, notices := n } := by
    unfold State.endFrame
    split
    case h_2 =>
      split
      · exact ⟨_, _, rfl⟩
      · split <;> exact ⟨_, s.notices, rfl⟩
    case h_3 => split <;> exact ⟨_, s.notices, rfl⟩
    all_goals exact ⟨_, s.notices, rfl⟩
  obtain ⟨l, n, h⟩ := h
  rw [h]
  exact ⟨rfl, rfl, rfl, rfl, rfl, rfl, rfl, .refl _⟩

theorem lineOk_endFrame {s : State} (h : LineOk s.line) : LineOk s.endFrame.line := by
  obtain ⟨h1, h2, h3, h4, h5, h6, h7, h8⟩ := id h
  unfold State.endFrame
  split
  case h_1 hst => simp_all [LineOk]
  case h_2 hst =>
    split
    · rename_i hg
      have : s.line.rx ≠ .nothing := fun e => by simp [Line.goodAtEnd, e] at hg
      simp_all [LineOk]
    · split <;> simp_all [LineOk]
  case h_3 hst => split <;> simp_all [LineOk]
  case h_4 hst => simp_all [LineOk]
  all_goals exact h

theorem endFrame_offline (s : State) : s.endFrame.line.state = .offline ↔ s.line.state = .offline := by
  unfold State.endFrame
  split
  case h_2 hst => split <;> [skip; split] <;> simp [hst]
  case h_3 hst => split <;> simp [hst]
  all_goals simp [*]

/-- A frame's end brings no frame into hand: where the station contends or sends, nothing ends. -/
theorem endFrame_hand {s : State} (h : s.endFrame.line.state = .contending ∨ s.endFrame.line.state = .sending) :
    s.endFrame.line = s.line := by
  revert h
  unfold State.endFrame
  split
  case h_2 hst => split <;> [skip; split] <;> simp [hst]
  case h_3 hst => split <;> simp [hst]
  all_goals simp [*]

/-! ### The line's events -/

theorem execStartOpportunity_kept {s t : State} (h : execStartOpportunity s = .next t) : Kept s t := by
  unfold execStartOpportunity at h
  split at h
  case isFalse => cases h; exact .refl s
  case isTrue hst =>
    split at h <;> cases h
    case h_1 =>
      refine kept_setLine (fun hok => lineOk_offered hok hst none) Iff.rfl fun f k hh ho hc => ?_
      simp [hst] at hc
    case h_2 f hoff =>
      refine kept_setLine (fun hok => lineOk_offered hok hst (some f)) (by simp [hst]) fun f' k hh ho _ => .inr ?_
      cases hh
      unfold offer at hoff
      split at hoff
      · rename_i k' rest horder
        split at hoff
        · cases hoff
        · split at hoff <;> cases hoff
          cases ho
          simp [horder]
      · split at hoff <;> cases hoff
        cases ho

theorem execRoundLost_kept {s t : State} (h : execRoundLost s = .next t) : Kept s t := by
  unfold execRoundLost at h
  split at h
  case h_2 => cases h; exact .refl s
  case h_1 f hst _ =>
    have hk : Kept s (s.setLine { s.line with state := .receiving, hand := none, rx := .receiving }) :=
      kept_setLine (fun hok => lineOk_roundLost hok hst) (by simp [hst]) fun _ _ hh => by cases hh
    split at h <;> cases h
    · exact hk
    · exact hk.trans (Quiet.entryRoundLost _ _).kept

theorem execRoundWon_kept {s t : State} (h : execRoundWon s = .next t) : Kept s t := by
  unfold execRoundWon at h
  split at h
  case h_2 => cases h; exact .refl s
  case h_1 f hst hh =>
    have hk : Kept s (s.setLine { s.line with state := .sending }) :=
      kept_setLine (fun hok => lineOk_roundWon hok hst) (by simp [hst]) fun _ _ hh' _ _ => .inl ⟨hh', .inl hst⟩
    split at h <;> cases h
    · exact hk
    · exact hk.trans (Quiet.sendEntry _ _).kept

theorem execClash_kept {s t : State} (h : execClash s = .next t) : Kept s t := by
  unfold execClash at h
  split at h
  case h_2 => cases h; exact .refl s
  case h_1 f hst hh =>
    have hk : Kept s (s.setLine s.line.afterClash) :=
      kept_setLine (fun hok => lineOk_afterClash hok hst)
        (by simp only [Line.afterClash, hst]; split <;> simp) fun _ _ hh' => by cases hh'
    have hc : Kept s ((s.setLine s.line.afterClash).giveClash f.owner) := by
      unfold State.giveClash
      split
      · exact hk
      · exact hk.trans (Quiet.entryClashed _ _).kept
    split at h <;> cases h
    · exact hc.trans (Quiet.post _ _).kept
    · exact hc

theorem execStartMark_kept {s t : State} {seen : LineCond} (h : execStartMark seen s = .next t) : Kept s t := by
  cases h
  refine kept_setLine (fun hok => lineOk_afterMark hok seen) ?_ fun f k hh ho hc => .inl ?_
  · unfold Line.afterMark
    cases h : s.line.state <;> dsimp only <;> split <;> simp [h]
  · revert hh hc
    unfold Line.afterMark
    cases h : s.line.state <;> dsimp only <;> split <;> simp_all

theorem execFrameEnd_kept {s t : State} {conds : List LineCond} (h : execFrameEnd s conds = .next t) : Kept s t := by
  unfold execFrameEnd at h
  split at h <;> cases h
  · refine Kept.trans (kept_setLine lineOk_endFrame (endFrame_offline s) fun f k hh _ hc => .inl ?_) (endFrame_quiet s).kept
    rw [endFrame_hand hc] at hh hc
    exact ⟨hh, hc⟩
  · exact .refl s

theorem execJoiningTimerExpiry_kept {s t : State} (h : execJoiningTimerExpiry s = .next t) : Kept s t := by
  unfold execJoiningTimerExpiry at h
  split at h <;> cases h
  · rename_i hst
    refine Kept.trans (kept_setLine (fun hok => lineOk_joined hok hst.1) (by simp [hst.1]) fun f k _ _ hc => ?_)
      (Quiet.post _ _).kept
    simp at hc
  · exact .refl s

theorem lineRestart_kept (s : State) : Kept s (lineRestart s).1 := by
  unfold lineRestart
  split
  · rename_i hst
    refine kept_setLine (fun hok => lineOk_restarted hok hst) (by simp [hst]) fun f k _ _ hc => ?_
    simp at hc
  · exact .refl s

/-! ### The loader's decision -/

/-- A start that passes takes an OFFLINE line to JOINING (R128, R188). -/
theorem decideStart_kept {s : State} (hs : s.loader.station = .starting) (hj : s.engine.job = none) (faulted : Bool) :
    Kept s (s.decideStart faulted) := by
  have hfail : ∀ r, Kept s (s.failStart r) := by
    intro r
    refine Kept.trans (t := { s with loader := { s.loader with station := .startFailed, reason := some r } })
      ⟨rfl, fun hl => ?_, fun _ h => h⟩ (Quiet.post _ _).kept
    obtain ⟨h1, -, h3, -⟩ := (startOk_iff s).mp hl.2
    refine ⟨hl.1, (startOk_iff _).mpr ⟨?_, ?_, h3, ?_⟩⟩
    · exact ⟨fun _ => by simp, fun _ => h1.mpr (by simp [hs])⟩
    · rintro ⟨j, hj', -⟩; simp [hj] at hj'
    · simp
  unfold State.decideStart
  split
  · exact hfail _
  · split
    · exact hfail _
    · have hoff : LineCore s → s.line = .cleared := fun hl =>
        hl.1.2.2.2.2.1 (((startOk_iff s).mp hl.2).1.mpr (by simp [hs]))
      refine ⟨rfl, fun hl => ?_, fun hl ⟨hn, hsl, hw, hh⟩ => ⟨hn, hsl, hw, ?_⟩⟩
      · obtain ⟨h1, -, h3, h4⟩ := (startOk_iff s).mp hl.2
        refine ⟨?_, (startOk_iff _).mpr ⟨?_, ?_, h3, ?_⟩⟩
        · simp [State.succeedStart, hoff hl, LineOk, Line.cleared, Config.silentClashes]
        · simp [State.succeedStart]
        · rintro ⟨j, hj', -⟩
          have : s.engine.job = some j := hj'
          simp [hj] at this
        · have : ¬ s.loader.reason.isSome = true := by rw [h4, hs]; simp
          simp [State.succeedStart]; simpa using this
      · intro f k hf
        simp [State.succeedStart, hoff hl, Line.cleared] at hf

end Sys2Proof.Machine
end

section
/-! The responder side's counts: how many operations execute against a window, and what a replaced slot or window leaves
of the predicate. -/

namespace Sys2Proof.Machine

/-! ### Counting -/

/-- Two predicates that agree off one place of a list without repeats differ in count by that place alone. -/
theorem countP_agree_off {α : Type} {p q : α → Bool} {a : α} : ∀ {l : List α}, l.Nodup → a ∈ l →
    (∀ b, b ≠ a → p b = q b) → l.countP p + (q a).toNat = l.countP q + (p a).toNat
  | b :: rest, hn, ha, h => by
    obtain ⟨hb, hr⟩ := List.nodup_cons.mp hn
    simp only [List.countP_cons]
    rcases List.mem_cons.mp ha with rfl | ha'
    · have : rest.countP p = rest.countP q :=
        List.countP_congr fun x hx => by rw [h x fun e => hb (e ▸ hx)]
      rw [this]
      cases p a <;> cases q a <;> simp
    · have hne : b ≠ a := fun e => hb (e ▸ ha')
      have := countP_agree_off hr ha' h
      rw [h b hne]
      omega

/-- The operation of a slot, when there is one, executes against window `w`. -/
def against (o : Option Operation) (w : Fin 32) : Bool :=
  match o with
  | none => false
  | some op => if op.phase = .executing then op.window == some w else false

theorem executingCount_eq (s : State) (w : Fin 32) :
    executingCount s w = (List.finRange 8).countP fun k => against s.slots[k] w := by
  unfold executingCount
  congr 1
  funext k
  unfold executing against
  cases s.slots[k] with
  | none => rfl
  | some op => dsimp only; split <;> rfl

/-- Replacing one slot moves the count by what the slot held and holds. -/
theorem executingCount_replaced {s t : State} {k : Fin 8} (h : ∀ k', k' ≠ k → t.slots[k'] = s.slots[k']) (w : Fin 32) :
    executingCount t w + (against s.slots[k] w).toNat = executingCount s w + (against t.slots[k] w).toNat := by
  rw [executingCount_eq, executingCount_eq]
  exact countP_agree_off (p := fun k => against t.slots[k] w) (q := fun k => against s.slots[k] w)
    (List.nodup_finRange 8) (List.mem_finRange k) fun k' hk => by rw [h k' hk]

/-- An operation executing against a window is counted. -/
theorem executingCount_pos {s : State} {k : Fin 8} {w : Fin 32} (h : against s.slots[k] w = true) :
    1 ≤ executingCount s w := by
  rw [executingCount_eq]
  exact List.countP_pos_iff.mpr ⟨k, List.mem_finRange k, h⟩

/-! ### The laws of a window entry on its own -/

/-- What a window entry's state and kind say of its counts and flags, beside who executes against it (R1, R2, R50). -/
def WindowLaws (w : WindowEntry) : Prop :=
  (match w.state with
    | .free => w = .cleared
    | .opened => w.touched = false ∧ w.quietWanted = false
    | .parked => w.quietWanted = true → 1 ≤ w.inUse
    | .closing => w.touched = false ∧ w.quietWanted = true ∧ 1 ≤ w.inUse) ∧
  match w.kind with
  | .memory => w.slotCount = 0 ∧ w.head = 0 ∧ w.committed = 0 ∧ w.reserved = 0
  | .mailbox =>
    w.limit = 0 ∧ 2 ≤ w.slotCount ∧ w.slotCount ≤ 256 ∧ w.head < w.slotCount ∧ w.reserved = w.inUse ∧
    w.committed + w.reserved ≤ w.slotCount

theorem windowOk_iff (s : State) (w : Fin 32) :
    WindowOk s w ↔ s.windows[w].inUse = executingCount s w ∧ WindowLaws s.windows[w] := Iff.rfl

theorem windowLaws_cleared : WindowLaws .cleared := ⟨rfl, rfl, rfl, rfl, rfl⟩

/-! ### What a replaced slot or window leaves -/

/-- An EXECUTING operation's slot names a window and has one job. -/
theorem slotOk_executing {s : State} {k : Fin 8} {op : Operation} (h : SlotOk s k) (hs : s.slots[k] = some op)
    (hp : op.phase = .executing) : op.sendCount ≤ 3 ∧ operationJobs s k = 1 ∧ k ∉ s.sendOrder ∧ op.response = none ∧
      op.kind ≠ .signal ∧ ∃ w, op.window = some w ∧ (op.mailboxSlot.isSome = true ↔ s.windows[w].kind = .mailbox) := by
  simp only [SlotOk, hs, hp] at h
  obtain ⟨h1, h2, h3, h4, h5, h6⟩ := h
  refine ⟨h1, h2, h3, h4, h5, ?_⟩
  cases hw : op.window with
  | none => simp [hw] at h6
  | some w => rw [hw] at h6; exact ⟨w, rfl, h6⟩

/-- A slot keeps its law where its record, its jobs, its place in the send order and its window's kind stay. -/
theorem slotOk_congr {s t : State} {k : Fin 8} (hslot : t.slots[k] = s.slots[k])
    (hjobs : operationJobs t k = operationJobs s k) (horder : k ∈ t.sendOrder ↔ k ∈ s.sendOrder)
    (hkind : ∀ w, against s.slots[k] w = true → t.windows[w].kind = s.windows[w].kind) (h : SlotOk s k) : SlotOk t k := by
  unfold SlotOk at h ⊢
  rw [hslot, hjobs, horder]
  cases ho : s.slots[k] with
  | none => simpa only [ho] using h
  | some op =>
    rw [ho] at h
    refine ⟨h.1, ?_⟩
    have h2 := h.2
    cases hp : op.phase with
    | answering => simpa only [hp] using h2
    | executing =>
      simp only [hp] at h2 ⊢
      refine ⟨h2.1, h2.2.1, h2.2.2.1, h2.2.2.2.1, ?_⟩
      cases hw : op.window with
      | none => simpa only [hw] using h2.2.2.2.2
      | some w =>
        have := hkind w (by simp [against, ho, hp, hw])
        simp only [hw] at h2 ⊢
        rw [this]
        exact h2.2.2.2.2

/-- The responder side's predicate after a step that replaces slot `k` and changes windows. -/
theorem serveOk_of_slot {s t : State} (k : Fin 8) (hs : ServeOk s)
    (hother : ∀ k', k' ≠ k → t.slots[k'] = s.slots[k'] ∧ operationJobs t k' = operationJobs s k' ∧
      (k' ∈ t.sendOrder ↔ k' ∈ s.sendOrder))
    (hslot : SlotOk t k) (horder : t.sendOrder.Nodup) (hwin : ∀ w, WindowOk t w)
    (hkind : ∀ w : Fin 32, 1 ≤ t.windows[w].inUse → t.windows[w].kind = s.windows[w].kind) (hhand : ResponseInHand t) :
    ServeOk t := by
  refine ⟨horder, fun k' => ?_, hwin, hhand⟩
  by_cases hk : k' = k
  · exact hk ▸ hslot
  · obtain ⟨h1, h2, h3⟩ := hother k' hk
    refine slotOk_congr h1 h2 h3 (fun w hw => hkind w ?_) (hs.2.1 k')
    rw [(hwin w).1]
    exact executingCount_pos (k := k') (h1 ▸ hw)

/-- A window keeps its law where its entry stays and the slots' operations against it stay in number. -/
theorem windowOk_congr {s t : State} {w : Fin 32} (hw : t.windows[w] = s.windows[w])
    (hc : executingCount t w = executingCount s w) (h : WindowOk s w) : WindowOk t w := by
  rw [windowOk_iff, hw, hc]; exact h

/-- A response in hand stays at the head of a send order that grows at its tail. -/
theorem responseInHand_append {s t : State} (hl : t.line = s.line) {more : List (Fin 8)}
    (ho : t.sendOrder = s.sendOrder ++ more) (h : ResponseInHand s) : ResponseInHand t := by
  intro f k hf hk hst
  rw [hl] at hf hst
  rw [ho, List.head?_append, h f k hf hk hst]
  rfl

/-! ### Window commands -/

/-- A window entry's replacement by one with the same count and kind, or of an entry that nothing executes against. -/
theorem setWindow_kept (s : State) (i : Fin 32) (w : WindowEntry)
    (h : WindowLaws s.windows[i] → WindowLaws w ∧ w.inUse = s.windows[i].inUse ∧
      (w.inUse = 0 ∨ w.kind = s.windows[i].kind)) : Kept s (s.setWindow i w) where
  held := rfl
  line := fun hl => lineCore_of hl hl.1 Iff.rfl rfl rfl (.refl _)
  serve := by
    rintro - hs
    obtain ⟨hlaws, huse, hkind⟩ := h ((windowOk_iff s i).mp (hs.2.2.1 i)).2
    refine serveOk_of_slot 0 hs (fun _ _ => ⟨rfl, rfl, Iff.rfl⟩) ?_ hs.1 (fun v => ?_) (fun v hv => ?_) hs.2.2.2
    · refine slotOk_congr (s := s) rfl rfl Iff.rfl (fun v hv => ?_) (hs.2.1 0)
      by_cases hvi : i = v
      · subst hvi
        rw [setWindow_get_self]
        have := executingCount_pos hv
        rw [← (hs.2.2.1 i).1, ← huse] at this
        exact hkind.resolve_left (by omega)
      · rw [setWindow_get_other _ _ _ _ hvi]
    · by_cases hvi : i = v
      · subst hvi
        rw [windowOk_iff, setWindow_get_self]
        exact ⟨huse.trans (hs.2.2.1 i).1, hlaws⟩
      · exact windowOk_congr (setWindow_get_other _ _ _ _ hvi) rfl (hs.2.2.1 v)
    · by_cases hvi : i = v
      · subst hvi
        rw [setWindow_get_self] at hv ⊢
        exact hkind.resolve_left (by omega)
      · rw [setWindow_get_other _ _ _ _ hvi]

/-- A window command keeps what its act keeps on an entry in a state that it is taken in. -/
theorem onWindow_kept {taken : WindowState → Bool} {act : Fin 32 → WindowEntry → State → State × Result}
    (h : ∀ i u, taken u.windows[i].state = true → Kept u (act i u.windows[i] u).1) (s : State) :
    Kept s (onWindow taken act s).1 := by
  unfold onWindow
  split
  · rename_i hi
    split
    · rename_i ht
      exact h ⟨argWindow s, hi⟩ s ht
    · exact .refl s
  · exact .refl s

theorem winOpen_kept (s : State) : Kept s (winOpen s).1 := by
  refine onWindow_kept (fun i u ht => ?_) s
  split
  case isFalse => exact .refl u
  case isTrue hacc =>
    refine setWindow_kept u i _ fun hl => ?_
    have hfree : u.windows[i] = .cleared := by
      have hst : u.windows[i].state = .free := by simpa using ht
      have := hl.1
      rw [hst] at this
      exact this
    refine ⟨⟨⟨rfl, rfl⟩, ?_⟩, by rw [hfree]; rfl, .inl rfl⟩
    by_cases hk : argKind u = 1
    · simp [openAccepted, hk] at hacc
      simp [openedEntry, hk, WindowEntry.cleared]
      omega
    · simp [openedEntry, hk, WindowEntry.cleared]

theorem winPark_kept (s : State) : Kept s (winPark s).1 := by
  refine onWindow_kept (fun i u ht => ?_) s
  have hst : u.windows[i].state = .opened := by simpa using ht
  split
  · refine setWindow_kept u i _ fun hl => ⟨⟨?_, hl.2⟩, rfl, .inr rfl⟩
    have := hl.1
    simp only [hst] at this
    exact fun hq => absurd (this.2.symm.trans hq) Bool.false_ne_true
  · rename_i hu
    exact setWindow_kept u i _ fun hl => ⟨⟨fun _ => Nat.one_le_iff_ne_zero.mpr hu, hl.2⟩, rfl, .inr rfl⟩

theorem winUnpark_kept (s : State) : Kept s (winUnpark s).1 :=
  onWindow_kept (fun i u _ => setWindow_kept u i { u.windows[i] with state := .opened, touched := false, quietWanted := false }
    fun hl => ⟨⟨⟨rfl, rfl⟩, hl.2⟩, rfl, .inr rfl⟩) s

theorem winClose_kept (s : State) : Kept s (winClose s).1 := by
  refine onWindow_kept (fun i u ht => ?_) s
  split
  · rename_i hu
    exact setWindow_kept u i _ fun _ => ⟨windowLaws_cleared, hu.symm, .inl rfl⟩
  · rename_i hu
    exact setWindow_kept u i _ fun hl => ⟨⟨⟨rfl, rfl, Nat.one_le_iff_ne_zero.mpr hu⟩, hl.2⟩, rfl, .inr rfl⟩

/-- New grant sets stand in no law. -/
theorem winGrants_kept (s : State) : Kept s (winGrants s).1 := by
  refine onWindow_kept (fun i u ht => ?_) s
  refine setWindow_kept u i _ fun hl => ⟨⟨?_, hl.2⟩, rfl, .inr rfl⟩
  have hst := (serving_iff _).mp ht
  have := hl.1
  rcases hst with hst | hst <;> simp only [hst] at this ⊢ <;> exact this

theorem winQuery_kept (s : State) : Kept s (winQuery s).1 :=
  onWindow_kept (fun i u _ => (show Quiet u { u with args := windowCopy u.windows[i] } from
    ⟨rfl, rfl, rfl, rfl, rfl, rfl, rfl, .refl _⟩).kept) s

/-- The head moves on inside the ring, and what was committed is given back (R56). -/
theorem mboxConsume_kept (s : State) : Kept s (mboxConsume s).1 := by
  refine onWindow_kept (fun i u ht => ?_) s
  split
  case isFalse => exact .refl u
  case isTrue hc =>
    obtain ⟨hkind, -, hle⟩ := hc
    refine setWindow_kept u i _ fun hl => ⟨⟨?_, ?_⟩, rfl, .inr rfl⟩
    · have hst := (serving_iff _).mp ht
      have := hl.1
      rcases hst with hst | hst <;> simp only [hst] at this ⊢ <;> exact this
    · have := hl.2
      simp only [hkind] at this ⊢
      obtain ⟨h1, h2, h3, h4, h5, h6⟩ := this
      exact ⟨h1, h2, h3, Nat.mod_lt _ (by omega), h5, by omega⟩

end Sys2Proof.Machine
end

section
/-! The responder side's events: taking a request, the send result of a response, the end of an operation's job; then the
engine's events and the resets; and the predicates over every command. -/

namespace Sys2Proof.Machine

/-! ### Taking a request -/

theorem freeSlot_none {s : State} {k : Fin 8} (h : freeSlot s = some k) : s.slots[k] = none :=
  Option.isNone_iff_eq_none.mp (List.find?_some (p := fun k : Fin 8 => s.slots[k].isNone) h)

/-- A free slot has no job and no place in the send order. -/
theorem slotOk_free {s : State} {k : Fin 8} (h : SlotOk s k) (hk : s.slots[k] = none) :
    operationJobs s k = 0 ∧ k ∉ s.sendOrder := by
  simpa only [SlotOk, hk] using h

/-- The line's predicate over a responder operation, which leaves the line, the loader and the pins alone. -/
theorem lineCore_of_responder {s t : State} (h : ResponderFrame s t) (he : OwnersKept s.engine t.engine)
    (hl : LineCore s) : LineCore t :=
  lineCore_of hl (h.line ▸ hl.1) (by rw [h.line]) (by rw [h.loader]) (by rw [h.loader]) he

/-- A DONE built in a free slot joins the tail of the send order (R44). -/
theorem answerAtOnce_kept {s : State} {k : Fin 8} (hk : s.slots[k] = none) (r : Request) (o : DoneOutcome) :
    Kept s (s.answerAtOnce k r o) where
  held := rfl
  line := lineCore_of_responder (.answerAtOnce s k r o) (.refl _)
  serve := by
    rintro - hs
    obtain ⟨hjobs, horder⟩ := slotOk_free (hs.2.1 k) hk
    have hself : (s.answerAtOnce k r o).slots[k] = some ((r.operation none).answered (.done o)) := setSlot_get_self s k _
    have hothers : ∀ k', k' ≠ k → (s.answerAtOnce k r o).slots[k'] = s.slots[k'] :=
      fun k' hne => setSlot_get_other s k k' _ hne.symm
    refine serveOk_of_slot k hs (fun k' hne => ⟨hothers k' hne, rfl, ?_⟩) ?_ ?_ (fun w => ?_) (fun _ _ => rfl)
      (responseInHand_append (s := s) (more := [k]) rfl rfl hs.2.2.2)
    · simp [State.answerAtOnce, hne]
    · unfold SlotOk
      rw [hself]
      exact ⟨Nat.zero_le 3, hjobs, List.mem_append_right _ List.mem_cons_self, rfl⟩
    · exact List.nodup_append.mpr ⟨hs.1, List.nodup_singleton k, fun a ha b hb e => by
        rw [List.mem_singleton] at hb; exact horder (hb ▸ e ▸ ha)⟩
    · refine windowOk_congr (s := s) rfl ?_ (hs.2.2.1 w)
      have := executingCount_replaced hothers w
      rw [hself, hk] at this
      exact this

theorem serveSignal_kept {s : State} {k : Fin 8} (hk : s.slots[k] = none) (r : Request) : Kept s (s.serveSignal k r) := by
  unfold State.serveSignal
  split
  · exact answerAtOnce_kept hk r _
  · split
    · exact answerAtOnce_kept hk r _
    · refine Kept.trans (t := (s.post (.remoteSignal r.sender r.value)).setReplay (replayIndex r.sender r.tag.entry)
        ⟨.settled, r.incarnation, r.tag.epoch, some .ok⟩) ?_ (answerAtOnce_kept ?_ r _)
      · exact Quiet.kept ⟨rfl, rfl, rfl, rfl, rfl, rfl, rfl, .refl _⟩
      · exact hk

/-- The windows, the slots, the replay records and the buffers are beside what queueing a job looks at. -/
theorem queueResponder_with (s : State) (j : Job) (ws : Vector WindowEntry 32) (os : Vector (Option Operation) 8)
    (rs : Vector ReplayRecord 512) (bs : Vector Buffer 24) :
    State.queueResponder { s with windows := ws, slots := os, replay := rs, buffers := bs } j =
      { s.queueResponder j with windows := ws, slots := os, replay := rs, buffers := bs } := by
  unfold State.queueResponder State.selectJob
  cases hj : s.engine.job with
  | some j' => simp [State.setEngine, hj]
  | none =>
    cases s.engine.responder <;> cases hg : s.pins.lbgnt <;>
      simp [State.setEngine, State.startJob, hj, hg, grantLimit]

/-- An admitted request, field by field: its job is queued, its window counts it, its slot holds its operation, its
record is made, and its buffer is given (R18, R30, R35, R36). -/
theorem executeRequest_eq (s : State) (k : Fin 8) (r : Request) : s.executeRequest k r =
    { s.queueResponder (admittedJob k r s.windows[r.window] (freeBuffer s)) with
      windows := s.windows.set r.window s.windows[r.window].afterAdmission
      slots := s.slots.set k (some (admittedOperation r s.windows[r.window] (freeBuffer s)))
      replay := (s.recordAdmission r).replay
      buffers := (s.giveBuffer (freeBuffer s) (.operation k)).buffers } := by
  rw [← queueResponder_with]
  unfold State.executeRequest State.recordAdmission
  cases freeBuffer s <;> split <;> rfl

theorem admittedJob_owner (k : Fin 8) (r : Request) (w : WindowEntry) (b : Option (Fin 24)) :
    (admittedJob k r w b).owner = .operation k := by
  unfold admittedJob; split <;> rfl

/-- The Window Table's six checks in the words of R14: each refuses where those before it pass. -/
theorem windowRefusal_eq (w : WindowEntry) (write : Bool) (sender : Station) (offset length : Nat) :
    windowRefusal w write sender offset length =
      if w.state = .free ∨ w.state = .closing then some .absent
      else if write = false ∧ w.kind = .mailbox then some .denied
      else if (if write then w.writeGrants else w.readGrants).getLsbD sender.toNat = false then some .denied
      else if (w.kind = .memory ∧ w.limit + 1 < offset + length) ∨ (w.kind = .mailbox ∧ 0 < offset) then
        some .range
      else if w.state = .parked then some .parked
      else if w.kind = .mailbox ∧ w.committed + w.reserved = w.slotCount then some .full
      else none := by
  have hserve : w.state.serving = false ↔ w.state = .free ∨ w.state = .closing := by
    cases w.state <;> simp [WindowState.serving]
  unfold windowRefusal inGrants
  simp only [hserve]
  cases hk : w.kind with
  | memory => simp
  | mailbox => simp [Nat.pos_iff_ne_zero]

/-- A passed admission found the window OPEN and, in a ring, a slot neither committed nor reserved (R14, R51). -/
theorem windowRefusal_none {w : WindowEntry} {write : Bool} {sender : Station} {offset length : Nat}
    (h : windowRefusal w write sender offset length = none) :
    w.state = .opened ∧ (w.kind = .mailbox → w.committed + w.reserved ≠ w.slotCount) := by
  rw [windowRefusal_eq] at h
  generalize (if write then w.writeGrants else w.readGrants) = grants at h
  split_ifs at h with habsent hkind hgrant hrange hparked hfull
  exact ⟨by cases hs : w.state <;> simp_all, fun hk he => hfull ⟨hk, he⟩⟩

theorem windowRefusal_parked {w : WindowEntry} {write : Bool} {sender : Station} {offset length : Nat}
    (h : windowRefusal w write sender offset length = some .parked) : w.state = .parked := by
  rw [windowRefusal_eq] at h
  generalize (if write then w.writeGrants else w.readGrants) = grants at h
  by_contra hparked
  rw [if_neg hparked] at h
  split_ifs at h <;> cases h

/-! What a window's kind makes of an admission (R18, R35, R36, R51, R52). -/

section
variable {w : WindowEntry} (k : Fin 8) (r : Request) (b : Option (Fin 24))

theorem afterAdmission_memory (h : w.kind = .memory) : w.afterAdmission = { w with inUse := w.inUse + 1 } := by
  rw [WindowEntry.afterAdmission, h]

theorem afterAdmission_mailbox (h : w.kind = .mailbox) :
    w.afterAdmission = { w with inUse := w.inUse + 1, reserved := w.reserved + 1 } := by
  rw [WindowEntry.afterAdmission, h]

theorem admittedOperation_memory (h : w.kind = .memory) :
    admittedOperation r w b = { r.operation b with localAddress := some (w.base + r.offset) } := by
  rw [admittedOperation, h]

theorem admittedOperation_mailbox (h : w.kind = .mailbox) : admittedOperation r w b =
    { r.operation b with
      localAddress := some (w.slotAddress w.nextSlot)
      mailboxSlot := some w.nextSlot
      mailboxSequence := some w.nextSequence } := by
  rw [admittedOperation, h]

theorem admittedJob_memory (h : w.kind = .memory) : admittedJob k r w b =
    Job.listed (if r.kind = .put then .write else .read) .responder (w.base + r.offset) r.length b (.operation k) none := by
  rw [admittedJob, h]

theorem admittedJob_mailbox (h : w.kind = .mailbox) : admittedJob k r w b =
    Job.listed .write .responder (w.slotAddress w.nextSlot) Config.mailboxSlotBytes b (.operation k) (some w.nextSlot) := by
  rw [admittedJob, h]

end

/-- An OPEN window with room keeps its laws at an admission. -/
theorem windowLaws_afterAdmission {w : WindowEntry} (h : WindowLaws w) (hst : w.state = .opened)
    (hroom : w.kind = .mailbox → w.committed + w.reserved ≠ w.slotCount) :
    WindowLaws w.afterAdmission ∧ w.afterAdmission.inUse = w.inUse + 1 ∧ w.afterAdmission.kind = w.kind := by
  obtain ⟨h1, h2⟩ := h
  cases hk : w.kind with
  | memory =>
    rw [afterAdmission_memory hk]
    refine ⟨⟨?_, ?_⟩, rfl, hk⟩
    · simp only [hst] at h1 ⊢; exact h1
    · simp only [hk] at h2 ⊢; exact h2
  | mailbox =>
    rw [afterAdmission_mailbox hk]
    have := hroom hk
    refine ⟨⟨?_, ?_⟩, rfl, hk⟩
    · simp only [hst] at h1 ⊢; exact h1
    · simp only [hk] at h2 ⊢
      obtain ⟨g1, g2, g3, g4, g5, g6⟩ := h2
      exact ⟨g1, g2, g3, g4, by omega, by omega⟩

/-- An admitted operation is EXECUTING against its window, with a mailbox slot exactly in a MAILBOX window. -/
theorem admittedOperation_spec (r : Request) (w : WindowEntry) (b : Option (Fin 24)) (hr : r.kind ≠ .signal) :
    (admittedOperation r w b).phase = .executing ∧ (admittedOperation r w b).window = some r.window ∧
    (admittedOperation r w b).response = none ∧ (admittedOperation r w b).sendCount = 0 ∧
    (admittedOperation r w b).kind = r.kind ∧
    ((admittedOperation r w b).mailboxSlot.isSome = true ↔ w.kind = .mailbox) := by
  unfold admittedOperation
  cases hk : w.kind <;> simp [Request.operation, hr]

theorem executeRequest_windows (s : State) (k : Fin 8) (r : Request) : (s.executeRequest k r).windows =
    s.windows.set r.window s.windows[r.window].afterAdmission := by rw [executeRequest_eq]

theorem executeRequest_slots (s : State) (k : Fin 8) (r : Request) : (s.executeRequest k r).slots =
    s.slots.set k (some (admittedOperation r s.windows[r.window] (freeBuffer s))) := by rw [executeRequest_eq]

theorem executeRequest_engine (s : State) (k : Fin 8) (r : Request) : (s.executeRequest k r).engine =
    (s.queueResponder (admittedJob k r s.windows[r.window] (freeBuffer s))).engine := by rw [executeRequest_eq]

theorem executeRequest_sendOrder (s : State) (k : Fin 8) (r : Request) :
    (s.executeRequest k r).sendOrder = s.sendOrder := by
  rw [executeRequest_eq]
  obtain ⟨e, he⟩ := queueResponder_eq s (admittedJob k r s.windows[r.window] (freeBuffer s))
  rw [he]
  rfl

/-- An admission counts its operation at the window and gives it one job (R2, R18). -/
theorem executeRequest_kept {s : State} {k : Fin 8} (hk : s.slots[k] = none) {r : Request} (hr : r.kind ≠ .signal)
    (hst : s.windows[r.window].state = .opened)
    (hroom : s.windows[r.window].kind = .mailbox →
      s.windows[r.window].committed + s.windows[r.window].reserved ≠ s.windows[r.window].slotCount) :
    Kept s (s.executeRequest k r) := by
  have hown := admittedJob_owner k r s.windows[r.window] (freeBuffer s)
  have hf := ResponderFrame.executeRequest s k r
  have hengine := executeRequest_engine s k r
  have horder := executeRequest_sendOrder s k r
  have hslots := executeRequest_slots s k r
  have hwindows := executeRequest_windows s k r
  generalize s.executeRequest k r = t at hf hengine horder hslots hwindows ⊢
  refine ⟨by rw [hf.pins], lineCore_of_responder hf (by rw [hengine]; exact queueResponder_owners s _ k hown),
    fun hl hs => ?_⟩
  have hjobs : ∀ k', operationJobs t k' = operationJobs s k' + (k == k').toNat := fun k' => by
    rw [operationJobs_eq, hengine]; exact queueResponder_jobs s _ k hown hl.owners k'
  obtain ⟨hfree, hout⟩ := slotOk_free (hs.2.1 k) hk
  obtain ⟨hph, hwin, hresp, hcount, hkind, hslot⟩ :=
    admittedOperation_spec r s.windows[r.window] (freeBuffer s) hr
  obtain ⟨hlaws, huse, hwkind⟩ :=
    windowLaws_afterAdmission ((windowOk_iff s r.window).mp (hs.2.2.1 r.window)).2 hst hroom
  generalize admittedOperation r s.windows[r.window] (freeBuffer s) = op at hph hwin hresp hcount hkind hslot hslots
  have hself : t.slots[k] = some op := by rw [hslots, getElem_set_fin, if_pos rfl]
  have hothers : ∀ k', k' ≠ k → t.slots[k'] = s.slots[k'] := fun k' hne => by
    rw [hslots, getElem_set_fin, if_neg hne.symm]
  have hwself : t.windows[r.window] = s.windows[r.window].afterAdmission := by
    rw [hwindows, getElem_set_fin, if_pos rfl]
  have hwothers : ∀ w : Fin 32, w ≠ r.window → t.windows[w] = s.windows[w] := fun w hne => by
    rw [hwindows, getElem_set_fin, if_neg hne.symm]
  refine serveOk_of_slot k hs (fun k' hne => ⟨hothers k' hne, by simp [hjobs, hne.symm], by rw [horder]⟩) ?_
    (horder ▸ hs.1) (fun w => ?_) (fun w _ => ?_)
    (responseInHand_append (s := s) (more := []) hf.line (by simpa using horder) hs.2.2.2)
  · unfold SlotOk
    rw [hself]
    refine ⟨by omega, ?_⟩
    simp only [hph, hwin, hwself, hwkind, hresp, hkind]
    exact ⟨by simp [hjobs, hfree], horder ▸ hout, trivial, hr, hslot⟩
  · have hc := executingCount_replaced hothers w
    rw [hself, hk] at hc
    by_cases hw : w = r.window
    · subst hw
      refine (windowOk_iff _ _).mpr ⟨?_, ?_⟩
      · rw [hwself, huse, (hs.2.2.1 r.window).1]
        simp [against, hph, hwin] at hc
        exact hc.symm
      · rw [hwself]; exact hlaws
    · refine windowOk_congr (hwothers w hw) ?_ (hs.2.2.1 w)
      have hne : (r.window == w) = false := beq_false_of_ne fun e => hw e.symm
      simpa [against, hph, hwin, hne] using hc
  · by_cases hw : w = r.window
    · subst hw; rw [hwself, hwkind]
    · rw [hwothers w hw]

/-- The touched flag of a PARKED window stands in no law (R17). -/
theorem touchWindow_kept {s : State} {i : Fin 32} (h : s.windows[i].state = .parked) (sender : Station) (offset : Nat) :
    Kept s (s.touchWindow i sender offset) := by
  unfold State.touchWindow
  split
  · exact .refl s
  · refine (setWindow_kept s i { s.windows[i] with touched := true }
      fun hl => ⟨⟨?_, hl.2⟩, rfl, .inr rfl⟩).trans (Quiet.post _ _).kept
    have := hl.1
    simp only [h] at this ⊢
    exact this

theorem touchWindow_slots (s : State) (i : Fin 32) (sender : Station) (offset : Nat) :
    (s.touchWindow i sender offset).slots = s.slots := by
  unfold State.touchWindow; split <;> rfl

theorem serveWindow_kept {s : State} {k : Fin 8} (hk : s.slots[k] = none) {r : Request} (hr : r.kind ≠ .signal) :
    Kept s (s.serveWindow k r) := by
  unfold State.serveWindow
  split
  case h_1 h =>
    obtain ⟨hst, hroom⟩ := windowRefusal_none h
    exact executeRequest_kept hk hr hst hroom
  case h_2 h =>
    exact (touchWindow_kept (windowRefusal_parked h) _ _).trans
      (answerAtOnce_kept (by rw [touchWindow_slots]; exact hk) r _)
  case h_3 => exact answerAtOnce_kept hk r _

theorem placePayload_quiet (s : State) (r : Request) : Quiet s (s.placePayload r) := by
  unfold State.placePayload
  split
  · exact .fillBuffer _ _ _
  · exact .refl s

theorem takeRequest_kept (s : State) (r : Request) : Kept s (s.takeRequest r).1 := by
  have hp := placePayload_quiet s r
  unfold State.takeRequest
  split
  · exact .refl s
  · exact .refl s
  all_goals
    split
    · exact .refl s
    · rename_i k hfree
      have hk : (s.placePayload r).slots[k] = none := by rw [hp.slots]; exact freeSlot_none hfree
      refine hp.kept.trans ?_
      first
        | exact answerAtOnce_kept hk r _
        | unfold State.serveFresh
          split
          · exact serveSignal_kept hk r
          · rename_i hr
            exact serveWindow_kept hk hr

theorem takeFrame_kept (s : State) (f : Frame) : Kept s (s.takeFrame f).1 := by
  unfold State.takeFrame
  split
  · split
    · exact takeRequest_kept s _
    · exact (Quiet.takeAnswer s _).kept
    · exact .refl s
  · exact .refl s

theorem takeFrame_line (s : State) (f : Frame) : (s.takeFrame f).1.line = s.line := by
  unfold State.takeFrame
  split
  · split
    · exact (ResponderFrame.takeRequest s _).line
    · exact (Quiet.takeAnswer s _).line
    · rfl
  · rfl

theorem execFrameCrcReceived_kept {s t : State} {conds : List LineCond} (h : execFrameCrcReceived conds s = .next t) :
    Kept s t := by
  unfold execFrameCrcReceived at h
  split at h
  case isFalse => cases h; exact .refl s
  case isTrue hrx =>
    split at h <;> cases h
    · exact .refl s
    · rename_i f _
      have hrx' : (s.takeFrame f).1.line.rx = .receiving := (congrArg Line.rx (takeFrame_line s f)).trans hrx
      exact (takeFrame_kept s _).trans (kept_setLine (fun hok => lineOk_good hok hrx' _ _) Iff.rfl
        fun _ _ hh _ hc => .inl ⟨hh, hc⟩)

/-! ### The send result of a response (R46) -/

/-- An operation in the send order is ANSWERING. -/
theorem slotOk_inOrder {s : State} {k : Fin 8} (h : SlotOk s k) (hk : k ∈ s.sendOrder) :
    ∃ op, s.slots[k] = some op ∧ op.phase = .answering ∧ op.sendCount ≤ 3 ∧ op.response.isSome = true ∧
      operationJobs s k = 0 := by
  unfold SlotOk at h
  cases hs : s.slots[k] with
  | none => simp only [hs] at h; exact absurd hk h.2
  | some op =>
    simp only [hs] at h
    cases hp : op.phase with
    | executing => simp only [hp] at h; exact absurd hk h.2.2.1
    | answering => simp only [hp] at h; exact ⟨op, rfl, hp, h.1, h.2.2.2, h.2.1⟩

/-- A slot whose operation was ANSWERING is freed or sent again, and its place in the send order with it. -/
theorem serveOk_sent {s t : State} {k : Fin 8} (hs : ServeOk s) (hk : k ∈ s.sendOrder) (hw : t.windows = s.windows)
    (he : t.engine = s.engine) (hnh : t.line.hand = none)
    (hslots : ∀ k', k' ≠ k → t.slots[k'] = s.slots[k'])
    (horder : ∀ k', k' ≠ k → (k' ∈ t.sendOrder ↔ k' ∈ s.sendOrder)) (hn : t.sendOrder.Nodup)
    (hself : t.slots[k] = none ∧ k ∉ t.sendOrder ∨
      ∃ op, t.slots[k] = some op ∧ op.phase = .answering ∧ op.sendCount ≤ 3 ∧ op.response.isSome = true ∧
        k ∈ t.sendOrder) : ServeOk t := by
  obtain ⟨op, hop, hph, -, -, hj⟩ := slotOk_inOrder (hs.2.1 k) hk
  have hj' : operationJobs t k = 0 := by rw [operationJobs_eq, he]; exact hj
  refine serveOk_of_slot k hs (fun k' hne => ⟨hslots k' hne, by rw [operationJobs_eq, he]; rfl, horder k' hne⟩) ?_ hn
    (fun w => ?_) (fun w _ => by rw [hw]) (fun f k' hf => by rw [hnh] at hf; cases hf)
  · unfold SlotOk
    rcases hself with ⟨h1, h2⟩ | ⟨op', h1, h2, h3, h4, h5⟩
    · rw [h1]; exact ⟨hj', h2⟩
    · rw [h1]; simp only [h2]; exact ⟨h3, hj', h5, h4⟩
  · refine windowOk_congr (by rw [hw]) ?_ (hs.2.2.1 w)
    have hc := executingCount_replaced hslots w
    have h0 : against s.slots[k] w = false := by simp [against, hop, hph]
    have h1 : against t.slots[k] w = false := by
      rcases hself with ⟨h, -⟩ | ⟨op', h, hp, -⟩
      · rw [h]; rfl
      · rw [h]; simp [against, hp]
    rw [h0, h1] at hc
    exact hc

theorem mem_filter_ne {l : List (Fin 8)} {k k' : Fin 8} (h : k' ≠ k) : k' ∈ l.filter (fun x => x != k) ↔ k' ∈ l := by
  simp [h]

theorem endOperation_serveOk {s : State} {k : Fin 8} {op : Operation} (hs : ServeOk s) (hk : k ∈ s.sendOrder)
    (hnh : s.line.hand = none) : ServeOk (s.endOperation k op) := by
  have hf := ResponderFrame.endOperation s k op
  have hslots : (s.endOperation k op).slots = s.slots.set k none := by
    unfold State.endOperation; cases op.buffer <;> rfl
  refine serveOk_sent hs hk (by unfold State.endOperation; cases op.buffer <;> rfl)
    (by unfold State.endOperation; cases op.buffer <;> rfl) (by rw [hf.line, hnh]) (fun k' hne => ?_)
    (fun k' hne => mem_filter_ne hne) (hs.1.filter _) (.inl ⟨?_, by simp [State.endOperation]⟩)
  · rw [hslots, getElem_set_fin, if_neg hne.symm]
  · rw [hslots, getElem_set_fin, if_pos rfl]

theorem responseSent_serveOk {s : State} {k : Fin 8} (taken : Bool) (hs : ServeOk s) (hk : k ∈ s.sendOrder)
    (hnh : s.line.hand = none) : ServeOk (s.responseSent k taken) := by
  obtain ⟨op, hop, hph, -, hresp, -⟩ := slotOk_inOrder (hs.2.1 k) hk
  simp only [State.responseSent, hop]
  split
  · exact endOperation_serveOk hs hk hnh
  · split
    · rename_i hcount
      refine serveOk_sent hs hk rfl rfl hnh (fun k' hne => setSlot_get_other s k k' _ hne.symm) (fun k' hne => ?_) ?_
        (.inr ⟨_, setSlot_get_self s k _, hph, hcount, hresp, List.mem_append_right _ List.mem_cons_self⟩)
      · simp [hne]
      · refine List.nodup_append.mpr ⟨hs.1.filter _, List.nodup_singleton k, fun a ha b hb e => ?_⟩
        rw [List.mem_singleton] at hb
        simp [e, hb] at ha
    · exact endOperation_serveOk hs hk hnh

theorem responseSent_engine (s : State) (k : Fin 8) (taken : Bool) : (s.responseSent k taken).engine = s.engine := by
  unfold State.responseSent State.endOperation
  split
  · rfl
  · rename_i op _
    split
    · cases op.buffer <;> rfl
    · split
      · rfl
      · cases op.buffer <;> rfl

theorem execSentFrameEnd_kept {s t : State} {slot : LineCond} (h : execSentFrameEnd slot s = .next t) : Kept s t := by
  unfold execSentFrameEnd at h
  split at h
  case h_2 => cases h; exact .refl s
  case h_1 f hst hh =>
    cases h
    have hk : Kept s (s.setLine { s.line with state := .idle, lastWinner := s.loader.number, clashes := 0, hand := none }) :=
      kept_setLine (fun hok => lineOk_sent hok hst _) (by simp [hst]) fun _ _ hh => by cases hh
    unfold State.giveResult
    split
    case h_2 => exact hk.trans (Quiet.entrySent _ _ _).kept
    case h_1 k ho =>
      refine ⟨by rw [(ResponderFrame.responseSent _ _ _).pins]; exact hk.held, fun hl => ?_, fun hl hs => ?_⟩
      · exact lineCore_of_responder (.responseSent _ _ _) (by rw [responseSent_engine]; exact .refl _) (hk.line hl)
      · refine responseSent_serveOk _ (hk.serve hl hs) ?_ rfl
        exact List.mem_of_mem_head? (hs.2.2.2 f k hh ho (.inr hst))

end Sys2Proof.Machine
end

section
/-! The engine's events, the resets and every command: the predicates of the line and of the responder side are kept. -/

namespace Sys2Proof.Machine

/-! ### A window at an execution end (R19, R38, R39, R53, R54) -/

/-- What an entry in use says of its flags: it is not FREE. -/
def InUseLaws (w : WindowEntry) : Prop :=
  match w.state with
  | .free => False
  | .opened => w.touched = false ∧ w.quietWanted = false
  | .parked => True
  | .closing => w.touched = false ∧ w.quietWanted = true

theorem inUseLaws_of {w : WindowEntry} (h : WindowLaws w) (huse : 1 ≤ w.inUse) : InUseLaws w := by
  have hs := h.1
  unfold InUseLaws
  cases hst : w.state <;> simp only [hst] at hs ⊢
  case free => rw [hs] at huse; exact absurd huse (by decide)
  case opened => exact hs
  case closing => exact ⟨hs.1, hs.2.1⟩

/-- The ring's counters agree with the in-use count (R50). -/
def CountLaws (w : WindowEntry) : Prop :=
  match w.kind with
  | .memory => w.slotCount = 0 ∧ w.head = 0 ∧ w.committed = 0 ∧ w.reserved = 0
  | .mailbox =>
    w.limit = 0 ∧ 2 ≤ w.slotCount ∧ w.slotCount ≤ 256 ∧ w.head < w.slotCount ∧ w.reserved = w.inUse ∧
    w.committed + w.reserved ≤ w.slotCount

/-- The count falls by 1, and a drain at 0 clears what it must; a kind changes only where nothing is in use any more. -/
theorem windowLaws_drained {w : WindowEntry} (h : InUseLaws w) (huse : 1 ≤ w.inUse)
    (hcount : CountLaws { w with inUse := w.inUse - 1 }) (i : Fin 32) :
    WindowLaws (drained i w).1 ∧ (drained i w).1.inUse = w.inUse - 1 ∧
      ((drained i w).1.inUse = 0 ∨ (drained i w).1.kind = w.kind) := by
  unfold InUseLaws at h
  by_cases hone : 1 < w.inUse
  · rw [drained, if_pos hone]
    refine ⟨⟨?_, hcount⟩, rfl, .inr rfl⟩
    cases hs : w.state <;> simp only [hs] at h ⊢
    case opened => exact h
    case parked => exact fun _ => by omega
    case closing => exact ⟨h.1, h.2, by omega⟩
  · have hzero : w.inUse - 1 = 0 := by omega
    rw [hzero] at hcount ⊢
    cases hs : w.state
    case free => simp only [hs] at h
    case opened =>
      have hd : (drained i w).1 = { w with inUse := 0 } := by simp [drained, hone, hs]
      rw [hd]
      refine ⟨⟨?_, hcount⟩, rfl, .inl rfl⟩
      simp only [hs] at h ⊢
      exact h
    case parked =>
      have hd : (drained i w).1 = { w with inUse := 0, quietWanted := false } := by simp [drained, hone, hs]
      rw [hd]
      refine ⟨⟨?_, hcount⟩, rfl, .inl rfl⟩
      simp [hs]
    case closing =>
      have hd : (drained i w).1 = .cleared := by simp only [drained, if_neg hone, hs]; rfl
      rw [hd]
      exact ⟨windowLaws_cleared, rfl, .inl rfl⟩

/-- At an execution end what the operation reserved is committed, and then its use ends. -/
theorem windowLaws_executionEnd {w : WindowEntry} (h : WindowLaws w) (huse : 1 ≤ w.inUse) (i : Fin 32)
    {slot : Option Nat} (hslot : slot.isSome = true ↔ w.kind = .mailbox) (fault : List Notice) :
    WindowLaws (executionEnd i w slot fault).1 ∧ (executionEnd i w slot fault).1.inUse = w.inUse - 1 ∧
    ((executionEnd i w slot fault).1.inUse = 0 ∨ (executionEnd i w slot fault).1.kind = w.kind) := by
  have hin := inUseLaws_of h huse
  have hkind := h.2
  cases slot with
  | none =>
    have hk : w.kind = .memory := by cases hk : w.kind <;> simp_all
    refine windowLaws_drained hin huse ?_ i
    simp only [CountLaws, hk] at hkind ⊢
    exact hkind
  | some p =>
    have hk : w.kind = .mailbox := hslot.mp rfl
    refine windowLaws_drained
      (w := { w with committed := w.committed + 1, reserved := w.reserved - 1, sequence := w.sequence + 1 }) hin huse ?_ i
    simp only [CountLaws, hk] at hkind ⊢
    obtain ⟨h1, h2, h3, h4, h5, h6⟩ := hkind
    exact ⟨h1, h2, h3, h4, by omega, by omega⟩

/-! ### The end of an operation's job -/

theorem settleRecord_fields (s : State) (op : Operation) (faulted : Bool) :
    (s.settleRecord op faulted).windows = s.windows ∧ (s.settleRecord op faulted).slots = s.slots ∧
    (s.settleRecord op faulted).sendOrder = s.sendOrder ∧ (s.settleRecord op faulted).engine = s.engine := by
  unfold State.settleRecord
  split <;> exact ⟨rfl, rfl, rfl, rfl⟩

/-- An executed operation is ANSWERING at the tail of the send order (R44). -/
theorem answerExecuted_fields (s : State) (k : Fin 8) (op : Operation) (faulted : Bool) :
    (s.answerExecuted k op faulted).windows = s.windows ∧ (s.answerExecuted k op faulted).engine = s.engine ∧
    (s.answerExecuted k op faulted).sendOrder = s.sendOrder ++ [k] ∧
    ∃ op', op'.phase = .answering ∧ op'.response.isSome = true ∧ op'.sendCount = op.sendCount ∧
      (s.answerExecuted k op faulted).slots = s.slots.set k (some op') := by
  unfold State.answerExecuted
  split
  · exact ⟨rfl, rfl, rfl, op.answered .data, rfl, rfl, rfl, rfl⟩
  · cases hb : op.buffer <;>
      exact ⟨rfl, rfl, rfl, { op with buffer := none }.answered (executionResponse op faulted), rfl, rfl, rfl, rfl⟩

theorem operationJobEnd_engine (s : State) (k : Fin 8) (faulted : Bool) :
    (s.operationJobEnd k faulted).engine = s.engine := by
  unfold State.operationJobEnd
  split
  · rfl
  · rename_i op _
    rw [(answerExecuted_fields _ k op faulted).2.1, (settleRecord_fields _ op faulted).2.2.2]
    cases hw : op.window with
    | none => simp [State.endExecution, hw]
    | some w => rw [endExecution_eq s op w faulted hw]

/-- The end of an operation's job, on the fields that the responder side's predicate rests on. -/
theorem operationJobEnd_fields {s : State} {k : Fin 8} {op : Operation} {w : Fin 32} (hop : s.slots[k] = some op)
    (hw : op.window = some w) (faulted : Bool) :
    ∃ op' fault, op'.phase = .answering ∧ op'.response.isSome = true ∧ op'.sendCount = op.sendCount ∧
      (s.operationJobEnd k faulted).windows = s.windows.set w (executionEnd w s.windows[w] op.mailboxSlot fault).1 ∧
      (s.operationJobEnd k faulted).slots = s.slots.set k (some op') ∧
      (s.operationJobEnd k faulted).sendOrder = s.sendOrder ++ [k] := by
  have hj : s.operationJobEnd k faulted =
      ((s.endExecution op faulted).settleRecord op faulted).answerExecuted k op faulted := by
    simp only [State.operationJobEnd, hop]
  obtain ⟨hrw, hrs, hro, -⟩ := settleRecord_fields (s.endExecution op faulted) op faulted
  obtain ⟨haw, -, hao, op', h1, h2, h3, has⟩ :=
    answerExecuted_fields ((s.endExecution op faulted).settleRecord op faulted) k op faulted
  have he := endExecution_eq s op w faulted hw
  have hws := (congrArg State.windows hj).trans (haw.trans (hrw.trans (congrArg State.windows he)))
  refine ⟨op', _, h1, h2, h3, hws, ?_, ?_⟩
  · rw [hj, has, hrs, he]
  · rw [hj, hao, hro, he]

/-! ### The end of a job -/

theorem releaseEngine_owners (s : State) : OwnersKept s.engine s.releaseEngine.engine where
  owners := fun h => h
  loader := by rintro - ⟨j', h, -⟩; cases h

/-- The engine lets a job go that is no operation's: every operation has the jobs it had. -/
theorem releaseEngine_quiet {s : State} {j : Job} (hj : s.engine.job = some j) (ho : ∀ k, j.owner ≠ .operation k) :
    Quiet s s.releaseEngine :=
  ⟨rfl, rfl, rfl, rfl, rfl, rfl, rfl, releaseEngine_owners s, fun _ k => by
    simp [jobsOf, State.releaseEngine, hj, ho k]⟩

/-- The operation whose job is started has that job alone, and executes against a window. -/
theorem slotOk_started {s : State} {j : Job} {k : Fin 8} (h : SlotOk s k) (hj : s.engine.job = some j)
    (ho : j.owner = .operation k) : ∃ op, s.slots[k] = some op ∧ op.phase = .executing ∧
      jobsOf s.releaseEngine.engine k = 0 := by
  have hone : jobsOf s.engine k = jobsOf s.releaseEngine.engine k + 1 := by
    simp [jobsOf, State.releaseEngine, hj, ho]
  unfold SlotOk at h
  cases hs : s.slots[k] with
  | none => simp only [hs, operationJobs_eq] at h; omega
  | some op =>
    cases hp : op.phase with
    | answering => simp only [hs, hp, operationJobs_eq] at h; omega
    | executing => simp only [hs, hp, operationJobs_eq] at h; exact ⟨op, rfl, hp, by omega⟩

/-- The end of an operation's job: its window counts one operation less, and its slot and the send order agree. -/
theorem endJob_operation_kept {s : State} {j : Job} {k : Fin 8} (hj : s.engine.job = some j)
    (ho : j.owner = .operation k) (faulted : Bool) : Kept s (s.releaseEngine.operationJobEnd k faulted) := by
  have hf := ResponderFrame.operationJobEnd s.releaseEngine k faulted
  have heng := operationJobEnd_engine s.releaseEngine k faulted
  refine ⟨by rw [hf.pins]; rfl, fun hl => ?_, fun hl hs => ?_⟩
  · exact lineCore_of hl (by rw [hf.line]; exact hl.1) (by rw [hf.line]; exact Iff.rfl) (by rw [hf.loader]; rfl)
      (by rw [hf.loader]; rfl) (by rw [heng]; exact releaseEngine_owners s)
  obtain ⟨op, hop, hph, hnone⟩ := slotOk_started (hs.2.1 k) hj ho
  obtain ⟨hcount, -, hout, -, -, w, hw, hslot⟩ := slotOk_executing (hs.2.1 k) hop hph
  obtain ⟨op', fault, hph', hresp', hcount', hwindows, hslots, horder⟩ :=
    operationJobEnd_fields (s := s.releaseEngine) hop hw faulted
  have huse : 1 ≤ s.windows[w].inUse := by
    rw [(hs.2.2.1 w).1]
    exact executingCount_pos (k := k) (by simp [against, hop, hph, hw])
  obtain ⟨hlaws, hfall, hkind⟩ :=
    windowLaws_executionEnd ((windowOk_iff s w).mp (hs.2.2.1 w)).2 huse w hslot fault
  generalize s.releaseEngine.operationJobEnd k faulted = t at hf heng hwindows hslots horder
  have hself : t.slots[k] = some op' := by rw [hslots, getElem_set_fin, if_pos rfl]
  have hothers : ∀ k', k' ≠ k → t.slots[k'] = s.slots[k'] := fun k' hne => by
    rw [hslots, getElem_set_fin, if_neg hne.symm]; rfl
  have hwself : t.windows[w] = (executionEnd w s.windows[w] op.mailboxSlot fault).1 := by
    rw [hwindows, getElem_set_fin, if_pos rfl]; rfl
  have hwothers : ∀ v : Fin 32, v ≠ w → t.windows[v] = s.windows[v] := fun v hne => by
    rw [hwindows, getElem_set_fin, if_neg hne.symm]; rfl
  refine serveOk_of_slot k hs (fun k' hne => ⟨hothers k' hne, ?_, ?_⟩) ?_ ?_ (fun v => ?_) (fun v hv => ?_)
    (responseInHand_append (s := s) hf.line horder hs.2.2.2)
  · rw [operationJobs_eq, operationJobs_eq, heng]
    have : ¬ k = k' := fun e => hne e.symm
    simp [jobsOf, State.releaseEngine, hj, ho, this]
  · simp [horder, hne, State.releaseEngine]
  · unfold SlotOk
    rw [hself, horder, operationJobs_eq, heng, hnone]
    simp only [hph', hresp', hcount']
    exact ⟨hcount, trivial, List.mem_append_right _ List.mem_cons_self, trivial⟩
  · rw [horder]
    refine List.nodup_append.mpr ⟨hs.1, List.nodup_singleton k, fun a ha b hb e => ?_⟩
    rw [List.mem_singleton] at hb
    exact hout (hb ▸ e ▸ ha)
  · have hc := executingCount_replaced hothers v
    rw [hself, hop] at hc
    by_cases hv : v = w
    · subst hv
      refine (windowOk_iff _ _).mpr ⟨?_, by rw [hwself]; exact hlaws⟩
      rw [hwself, hfall, (hs.2.2.1 v).1]
      simp [against, hph, hph', hw] at hc
      omega
    · refine windowOk_congr (hwothers v hv) ?_ (hs.2.2.1 v)
      have hne : (w == v) = false := beq_false_of_ne fun e => hv e.symm
      simpa [against, hph, hph', hw, hne] using hc
  · by_cases hvw : v = w
    · subst hvw
      rw [hwself] at hv ⊢
      exact hkind.resolve_left (by omega)
    · rw [hwothers v hvw]

/-- The end of the started job, whoever owns it (R157, R159). -/
theorem endJob_kept {s : State} {j : Job} (hj : s.engine.job = some j) (faulted : Bool) :
    Kept s (s.endJob j.owner faulted) := by
  refine Kept.trans ?_ (Quiet.selectJob _).kept
  cases ho : j.owner with
  | operation k => exact endJob_operation_kept hj ho faulted
  | entry i =>
    exact (releaseEngine_quiet hj (by simp [ho])).kept.trans (Quiet.entryJobEnd _ _ _).kept
  | loader =>
    have hq := (releaseEngine_quiet hj (by simp [ho])).kept
    have hk : LineCore s → Kept s.releaseEngine (s.releaseEngine.decideStart faulted) := fun hl =>
      decideStart_kept (s := s.releaseEngine) (((startOk_iff s).mp hl.2).2.1 ⟨j, hj, ho⟩) rfl faulted
    refine ⟨?_, fun hl => (hq.trans (hk hl)).line hl, fun hl => (hq.trans (hk hl)).serve hl⟩
    show (s.releaseEngine.decideStart faulted).pins.resetHeld = _
    unfold State.decideStart
    split
    · rfl
    · split <;> rfl

/-! ### The engine's events -/

/-- The started job goes on in another phase: every operation has the jobs it had. -/
theorem Quiet.of_started {s t : State} {j j' : Job} (hj : s.engine.job = some j) (hj' : t.engine.job = some j')
    (ho : j'.owner = j.owner) (hr : t.engine.responder = s.engine.responder)
    (hq : t.engine.requester = s.engine.requester) (held : t.pins.resetHeld = s.pins.resetHeld)
    (windows : t.windows = s.windows) (slots : t.slots = s.slots) (sendOrder : t.sendOrder = s.sendOrder)
    (line : t.line = s.line) (loader : t.loader = s.loader) : Quiet s t :=
  ⟨held, windows, slots, sendOrder, line, by rw [loader], by rw [loader],
    .of_requester_subset hr (by rw [hj, hj', Option.map_some, Option.map_some, ho]) (by rw [hq]; exact fun _ h => h)⟩

theorem execLbgntAsserted_quiet {s t : State} (h : execLbgntAsserted s = .next t) : Quiet s t := by
  unfold execLbgntAsserted at h
  split at h <;> cases h
  · exact ⟨rfl, rfl, rfl, rfl, rfl, rfl, rfl, .refl _⟩
  · rename_i j hj
    exact .of_started hj rfl rfl rfl rfl rfl rfl rfl rfl rfl rfl

theorem execLbgntDeasserted_quiet {s t : State} (h : execLbgntDeasserted s = .next t) : Quiet s t := by
  unfold execLbgntDeasserted at h
  split at h <;> cases h
  · exact ⟨rfl, rfl, rfl, rfl, rfl, rfl, rfl, .refl _⟩
  · rename_i j hj
    exact .of_started hj rfl rfl rfl rfl rfl rfl rfl rfl rfl rfl

theorem execLberr_kept {s t : State} {inCycle : Bool} (h : execLberr s inCycle = .next t) : Kept s t := by
  unfold execLberr at h
  split at h
  · cases h; exact .refl s
  · rename_i j hj
    split at h <;> cases h
    · exact endJob_kept hj true
    · exact .refl s

theorem execGrantWaitExpiry_kept {s t : State} (h : execGrantWaitExpiry s = .next t) : Kept s t := by
  unfold execGrantWaitExpiry at h
  split at h
  · cases h; exact .refl s
  · rename_i j hj
    split at h <;> cases h
    · exact endJob_kept hj true
    · exact .refl s

/-- A cycle moves bytes alone (R154). -/
theorem moveCycle_quiet (s : State) (j : Job) : Quiet s (s.moveCycle j) ∧ (s.moveCycle j).engine = s.engine := by
  unfold State.moveCycle
  split
  · exact ⟨⟨rfl, rfl, rfl, rfl, rfl, rfl, rfl, .refl _⟩, rfl⟩
  · split <;> exact ⟨⟨rfl, rfl, rfl, rfl, rfl, rfl, rfl, .refl _⟩, rfl⟩

theorem completeCycle_kept {s : State} {j : Job} (hj : s.engine.job = some j) : Kept s (s.completeCycle j) := by
  obtain ⟨hq, he⟩ := moveCycle_quiet s j
  have hj' : (s.moveCycle j).engine.job = some j := by rw [he]; exact hj
  unfold State.completeCycle
  split
  · exact hq.kept.trans (endJob_kept hj' false)
  · refine (hq.trans ?_).kept
    unfold State.continueJob
    split <;> exact .of_started hj' rfl rfl rfl rfl rfl rfl rfl rfl rfl rfl

theorem execBusCycleComplete_kept {s t : State} {stores : List Host.Cell} (h : execBusCycleComplete stores s = .next t) :
    Kept s t := by
  unfold execBusCycleComplete at h
  split at h
  · cases h; exact .refl s
  · rename_i j hj
    split at h
    · split at h <;> cases h
      have hq : Quiet s { s with mem := Memory.writeCells s.mem stores } := ⟨rfl, rfl, rfl, rfl, rfl, rfl, rfl, .refl _⟩
      exact hq.kept.trans (completeCycle_kept hj)
    · cases h; exact .refl s

end Sys2Proof.Machine
end

section
/-! Full resets, what a part in reset does with a command, and the predicates over every command and step. -/

namespace Sys2Proof.Machine

/-! ### Full reset -/

/-- A full reset puts every block at its full-reset value (R183). -/
theorem fullReset_atFullReset (s : State) : AtFullReset s.fullReset := by
  unfold AtFullReset State.fullReset
  refine ⟨?_, ?_, rfl, ?_, ?_, rfl, ?_, rfl, rfl, ?_, rfl, rfl, rfl, ?_, rfl, rfl, rfl, rfl⟩ <;> intro i
  case refine_6 => simp
  all_goals exact Vector.getElem_replicate i.isLt

/-- With every block at its full-reset value the line's predicate holds. -/
theorem lineCore_of_reset {s : State} (h : AtFullReset s) : LineCore s := by
  obtain ⟨-, -, -, -, -, -, -, -, hline, -, hengine, -, -, -, -, hst, hre, -⟩ := h
  refine ⟨?_, (startOk_iff s).mpr ⟨?_, fun _ => hst, ?_, ?_⟩⟩
  · rw [hline]; simp [LineOk, Line.cleared, Config.silentClashes]
  · simp [hline, hst]
  · rw [hengine]; simp [OwnersOk]
  · simp [hre, hst]

/-- With every block at its full-reset value, but for the engine and the loader, the responder side's predicate holds
while no operation has a job. -/
theorem serveOk_of_reset {s : State} (h : AtFullReset s) {t : State} (hw : t.windows = s.windows)
    (hs : t.slots = s.slots) (ho : t.sendOrder = s.sendOrder) (hl : t.line = s.line)
    (hj : ∀ k, jobsOf t.engine k = 0) : ServeOk t := by
  obtain ⟨hwin, hslots, horder, -, -, -, -, -, hline, -⟩ := h
  rw [horder] at ho
  refine ⟨by rw [ho]; exact List.nodup_nil, fun k => ?_, fun w => ?_, fun f k hf => ?_⟩
  · have hk : t.slots[k] = none := by rw [hs]; exact hslots k
    unfold SlotOk
    rw [hk, ho]
    exact ⟨hj k, List.not_mem_nil⟩
  · have hcount : executingCount t w = 0 := by
      rw [executingCount_eq, List.countP_eq_zero]
      intro k _
      rw [hs, hslots k]
      exact Bool.false_ne_true
    have hclear : t.windows[w] = .cleared := by rw [hw]; exact hwin w
    exact (windowOk_iff t w).mpr ⟨by rw [hclear, hcount]; rfl, hclear ▸ windowLaws_cleared⟩
  · rw [hl, hline] at hf; cases hf

/-- A start from a full reset: the start read is the loader's and the station is STARTING (R160, R185). -/
theorem beginStart_ok {s : State} (h : AtFullReset s) (straps : Station) :
    LineCore (s.beginStart straps) ∧ ServeOk (s.beginStart straps) := by
  have heng : s.engine = { responder := [], requester := [], job := none, timer := none, lbreq := false } :=
    h.2.2.2.2.2.2.2.2.2.2.1
  obtain ⟨e, he⟩ := startJob_eq { s with
    pins := { s.pins with resetHeld := false, straps := straps }, loader := { s.loader with number := straps } } startRead
  have hb : s.beginStart straps = State.setEngine { s with
    pins := { s.pins with resetHeld := false, straps := straps }, loader := { s.loader with number := straps } } e := he
  have hr : e.responder = [] := by
    have := startJob_responder { s with
      pins := { s.pins with resetHeld := false, straps := straps }, loader := { s.loader with number := straps } } startRead
    rw [he] at this
    exact this.trans (by rw [heng])
  have hq : e.requester = [] := by
    have := startJob_requester { s with
      pins := { s.pins with resetHeld := false, straps := straps }, loader := { s.loader with number := straps } } startRead
    rw [he] at this
    exact this.trans (by rw [heng])
  have hj : e.job.map Job.owner = some .loader := by
    have := startJob_owner { s with
      pins := { s.pins with resetHeld := false, straps := straps }, loader := { s.loader with number := straps } } startRead
    rw [he] at this
    exact this
  obtain ⟨hlok, hsok⟩ := lineCore_of_reset h
  obtain ⟨h1, -, -, h4⟩ := (startOk_iff s).mp hsok
  rw [hb]
  refine ⟨⟨hlok, (startOk_iff _).mpr ⟨h1, fun _ => ?_, ?_, h4⟩⟩, serveOk_of_reset h rfl rfl rfl rfl fun k => ?_⟩
  · exact h.2.2.2.2.2.2.2.2.2.2.2.2.2.2.2.1
  · simp [OwnersOk, hr, hq]
  · simp [jobsOf, hr, hj]

/-! ### Every command -/

theorem execStationReset_kept {s t : State} {straps : Station} (h : execStationReset straps s = .next t) : Kept s t := by
  unfold execStationReset at h
  split at h <;> cases h
  · exact .refl s
  · rename_i hr
    obtain ⟨hl, hs⟩ := beginStart_ok (fullReset_atFullReset s) straps
    refine ⟨?_, fun _ => hl, fun _ _ => hs⟩
    have hr' : s.pins.resetHeld = false := by simpa using hr
    rw [hr']
    unfold State.beginStart State.startJob
    split <;> rfl

/-- What holds of every next state of both branches holds of every next state of the choice. -/
theorem next_ite {p : Prop} [Decidable p] {a b : Host.Outcome State Fault Refusal} {P : State → Prop}
    (ha : ∀ t, a = .next t → P t) (hb : ∀ t, b = .next t → P t) : ∀ t, (if p then a else b) = .next t → P t := by
  split
  · exact ha
  · exact hb

theorem next_takeCommand_kept {code : Word} {owner : State → State × Result} (h : ∀ u, Kept u (owner u).1) (s : State) :
    ∀ t, (.next (takeCommand code owner s) : Host.Outcome State Fault Refusal) = .next t → Kept s t := by
  rintro t ⟨⟩
  exact takeCommand_kept h s

/-- A write to CMD as it comes from the bus is one of the fourteen commands or UNKNOWN_COMMAND (R179). -/
theorem cmdWrite_kept {s t : State} {code : Word} (h : cmdWrite code s = .next t) : Kept s t := by
  suffices hall : ∀ u, cmdWrite code s = .next u → Kept s u from hall t h
  unfold cmdWrite
  refine next_ite ?winOpen <| next_ite ?winPark <| next_ite ?winUnpark <| next_ite ?winClose <| next_ite ?winGrants <|
    next_ite ?winQuery <| next_ite ?mboxConsume <| next_ite ?chLoad <| next_ite ?chStart <| next_ite ?chAbort <|
    next_ite ?chClear <| next_ite ?chQuery <| next_ite ?lineRestart <| next_ite ?stationReset ?unknown
  case winOpen => exact next_takeCommand_kept winOpen_kept s
  case winPark => exact next_takeCommand_kept winPark_kept s
  case winUnpark => exact next_takeCommand_kept winUnpark_kept s
  case winClose => exact next_takeCommand_kept winClose_kept s
  case winGrants => exact next_takeCommand_kept winGrants_kept s
  case winQuery => exact next_takeCommand_kept winQuery_kept s
  case mboxConsume => exact next_takeCommand_kept mboxConsume_kept s
  case chLoad => exact next_takeCommand_kept (fun u => (chLoad_quiet u).kept) s
  case chStart => exact next_takeCommand_kept (fun u => (chStart_quiet u).kept) s
  case chAbort => exact next_takeCommand_kept (fun u => (chAbort_quiet u).kept) s
  case chClear => exact next_takeCommand_kept (fun u => (chClear_quiet u).kept) s
  case chQuery => exact next_takeCommand_kept (fun u => (chQuery_quiet u).kept) s
  case lineRestart => exact next_takeCommand_kept lineRestart_kept s
  case stationReset => exact fun t h => execStationReset_kept h
  case unknown => rintro t ⟨⟩; exact (takeUnknown_quiet _ s).kept

theorem execPortWordWrite_kept {s t : State} {address : BitVec 24} {value : Word} {enables : BitVec 4}
    (h : execPortWordWrite address value enables s = .next t) : Kept s t := by
  unfold execPortWordWrite at h
  split_ifs at h
  · exact cmdWrite_kept h
  · cases h; exact (portPop_quiet s).kept
  · cases h; exact (portEnable_quiet _ _ s).kept
  · cases h; exact (portArgument_quiet _ _ _ s).kept

/-- A command drives or releases RESET#. -/
def Instr.movesReset : Instr → Bool
  | .resetAsserted _ => true
  | .resetReleased _ => true
  | _ => false

/-- Every command that leaves RESET# alone keeps the predicates. -/
theorem exec_kept {c : Instr} {s t : State} (hc : Instr.movesReset c = false) (h : exec c s = .next t) : Kept s t := by
  cases c with
  | winOpen => exact next_takeCommand_kept winOpen_kept s t h
  | winPark => exact next_takeCommand_kept winPark_kept s t h
  | winUnpark => exact next_takeCommand_kept winUnpark_kept s t h
  | winClose => exact next_takeCommand_kept winClose_kept s t h
  | winGrants => exact next_takeCommand_kept winGrants_kept s t h
  | winQuery => exact next_takeCommand_kept winQuery_kept s t h
  | mboxConsume => exact next_takeCommand_kept mboxConsume_kept s t h
  | chLoad => exact next_takeCommand_kept (fun u => (chLoad_quiet u).kept) s t h
  | chStart => exact next_takeCommand_kept (fun u => (chStart_quiet u).kept) s t h
  | chAbort => exact next_takeCommand_kept (fun u => (chAbort_quiet u).kept) s t h
  | chClear => exact next_takeCommand_kept (fun u => (chClear_quiet u).kept) s t h
  | chQuery => exact next_takeCommand_kept (fun u => (chQuery_quiet u).kept) s t h
  | lineRestart => exact next_takeCommand_kept lineRestart_kept s t h
  | stationReset straps => exact execStationReset_kept h
  | unknownCommand value enables => exact cmdWrite_kept h
  | noticePop value => cases h; exact (portPop_quiet s).kept
  | intEnable value enables => cases h; exact (portEnable_quiet _ _ s).kept
  | portWordWrite address value enables => exact execPortWordWrite_kept h
  | resetAsserted straps => cases hc
  | resetReleased straps => cases hc
  | paceAsserted n => exact (execPaceAsserted_quiet h).kept
  | paceDeasserted n => exact (execPaceDeasserted_quiet h).kept
  | lbgntAsserted => exact (execLbgntAsserted_quiet h).kept
  | lbgntDeasserted => exact (execLbgntDeasserted_quiet h).kept
  | lberr inCycle => exact execLberr_kept h
  | busCycleComplete stores => exact execBusCycleComplete_kept h
  | grantWaitExpiry => exact execGrantWaitExpiry_kept h
  | startOpportunity => exact execStartOpportunity_kept h
  | startMark seen => exact execStartMark_kept h
  | roundLost => exact execRoundLost_kept h
  | roundWon => exact execRoundWon_kept h
  | frameCrcReceived conds => exact execFrameCrcReceived_kept h
  | frameEnd conds => exact execFrameEnd_kept h
  | sentFrameEnd slot => exact execSentFrameEnd_kept h
  | clash => exact execClash_kept h
  | joiningTimerExpiry => exact execJoiningTimerExpiry_kept h
  | responseTimerExpiry entry => exact (execResponseTimerExpiry_quiet h).kept
  | holdTimerExpiry entry => exact (execHoldTimerExpiry_quiet h).kept
  | formation => exact (execFormation_quiet h).kept
  | signalFormation => exact (execSignalFormation_quiet h).kept

/-! ### A part in reset (R178, R183) -/

/-- Every block's full-reset value is beside the pins' levels. -/
theorem atFullReset_pins {s : State} (h : AtFullReset s) (p : Pins) : AtFullReset { s with pins := p } := h

theorem cmdWrite_held {s : State} (h : s.pins.resetHeld = true) (code : Word) : cmdWrite code s = .next s := by
  simp only [cmdWrite, execWinOpen, execWinPark, execWinUnpark, execWinClose, execWinGrants, execWinQuery, execMboxConsume,
    execChLoad, execChStart, execChAbort, execChClear, execChQuery, execLineRestart, takeCommand_held h, execStationReset,
    takeUnknown, h, if_true, ite_self]

theorem execPortWordWrite_held {s : State} (h : s.pins.resetHeld = true) (address : BitVec 24) (value : Word)
    (enables : BitVec 4) : execPortWordWrite address value enables s = .next s := by
  simp only [execPortWordWrite, execUnknownCommand, cmdWrite_held h, execNoticePop, portPop, execIntEnable, portEnable,
    portArgument, h, if_true, ite_self]

/-- No channel of a part in reset is eligible. -/
theorem arbiterChoice_reset {s : State} (h : AtFullReset s) : arbiterChoice s = none := by
  have hch : ∀ c : Fin 8, s.channels[c].state = .idle := fun c => by rw [h.2.2.2.2.1 c]
  rw [arbiterChoice, List.find?_eq_none]
  intro c _
  have hc : s.channels[c.val].state = .idle := hch c
  simp [eligibleData, eligibleSignal, hc]

/-- A part in reset takes no command: but for its pins it stands as it stood, until the release (R178). -/
theorem exec_held {c : Instr} {s t : State} (hr : s.pins.resetHeld = true) (hs : AtFullReset s)
    (hc : Instr.movesReset c = false) (h : exec c s = .next t) : AtFullReset t := by
  obtain ⟨-, -, -, -, hch, -, hent, -, hline, -, heng, -⟩ := id hs
  have hoff : s.line.state = .offline := by rw [hline]
  have hrx : s.line.rx = .nothing := by rw [hline]
  have hjob : s.engine.job = none := by rw [heng]
  have hfree : ∀ i : Fin 16, s.entries[i].state = .free := fun i => by rw [hent i]
  have hstay : (.next s : Host.Outcome State Fault Refusal) = .next t → AtFullReset t := by rintro ⟨⟩; exact hs
  have hport : ∀ (code : Word) (owner : State → State × Result),
      (.next (takeCommand code owner s) : Host.Outcome State Fault Refusal) = .next t → AtFullReset t := fun code owner hu =>
    hstay (takeCommand_held hr code owner ▸ hu)
  cases c with
  | winOpen => exact hport _ _ h
  | winPark => exact hport _ _ h
  | winUnpark => exact hport _ _ h
  | winClose => exact hport _ _ h
  | winGrants => exact hport _ _ h
  | winQuery => exact hport _ _ h
  | mboxConsume => exact hport _ _ h
  | chLoad => exact hport _ _ h
  | chStart => exact hport _ _ h
  | chAbort => exact hport _ _ h
  | chClear => exact hport _ _ h
  | chQuery => exact hport _ _ h
  | lineRestart => exact hport _ _ h
  | stationReset straps => exact hstay ((if_pos hr).symm.trans h)
  | unknownCommand value enables => exact hstay ((cmdWrite_held hr _).symm.trans h)
  | noticePop value => exact hstay ((congrArg _ (if_pos hr).symm).trans h)
  | intEnable value enables => exact hstay ((congrArg _ (if_pos hr).symm).trans h)
  | portWordWrite address value enables => exact hstay ((execPortWordWrite_held hr _ _ _).symm.trans h)
  | resetAsserted straps => cases hc
  | resetReleased straps => cases hc
  | paceAsserted n =>
    simp only [exec, execPaceAsserted] at h
    split at h
    · exact hstay h
    · cases h
      have hidle : s.channels[pacedChannel n].afterAssertion = s.channels[pacedChannel n] := by
        rw [hch]; rfl
      rw [hidle]
      have hset : s.channels.set (pacedChannel n) s.channels[pacedChannel n] = s.channels := Vector.set_getElem_self _
      simp only [State.setChannel, hset]
      exact hs
  | paceDeasserted n => cases h; exact hs
  | lbgntAsserted => simp only [exec, execLbgntAsserted, hjob] at h; cases h; exact hs
  | lbgntDeasserted => simp only [exec, execLbgntDeasserted, hjob] at h; cases h; exact hs
  | lberr inCycle => simp only [exec, execLberr, hjob] at h; exact hstay h
  | busCycleComplete stores => simp only [exec, execBusCycleComplete, hjob] at h; exact hstay h
  | grantWaitExpiry => simp only [exec, execGrantWaitExpiry, hjob] at h; exact hstay h
  | startOpportunity => simp only [exec, execStartOpportunity, hoff] at h; exact hstay h
  | startMark seen =>
    have hm : s.line.afterMark seen = s.line := by simp only [Line.afterMark, hoff, ite_self]
    simp only [exec, execStartMark, hm] at h
    exact hstay h
  | roundLost => simp only [exec, execRoundLost, hoff] at h; exact hstay h
  | roundWon => simp only [exec, execRoundWon, hoff] at h; exact hstay h
  | frameCrcReceived conds =>
    have hn : ¬ s.line.rx = .receiving := by simp [hrx]
    simp only [exec, execFrameCrcReceived, if_neg hn] at h
    exact hstay h
  | frameEnd conds =>
    have he : s.endFrame = s := by simp only [State.endFrame, hoff]
    simp only [exec, execFrameEnd, he, ite_self] at h
    exact hstay h
  | sentFrameEnd slot => simp only [exec, execSentFrameEnd, hoff] at h; exact hstay h
  | clash => simp only [exec, execClash, hoff] at h; exact hstay h
  | joiningTimerExpiry =>
    have hn : ¬ (s.line.state = .joining ∧ s.line.inReceipt = false) := by simp [hoff]
    simp only [exec, execJoiningTimerExpiry, if_neg hn] at h
    exact hstay h
  | responseTimerExpiry entry => simp only [exec, execResponseTimerExpiry, hfree] at h; exact hstay h
  | holdTimerExpiry entry => simp only [exec, execHoldTimerExpiry, hfree] at h; exact hstay h
  | formation => simp only [exec, execFormation, arbiterChoice_reset hs] at h; exact hstay h
  | signalFormation => simp only [exec, execSignalFormation, arbiterChoice_reset hs] at h; exact hstay h

/-! ### Every step -/

/-- A command keeps what a part in reset stands at, the line's predicate, and with it the responder side's. -/
theorem exec_invariants {c : Instr} {s t : State} (hheld : HeldInv s) (h : exec c s = .next t) :
    HeldInv t ∧ (LineCore s → LineCore t) ∧ (LineCore s → ServeOk s → ServeOk t) := by
  cases hc : Instr.movesReset c with
  | false =>
    have hk := exec_kept hc h
    refine ⟨fun ht => ?_, hk.line, hk.serve⟩
    have hr : s.pins.resetHeld = true := hk.held ▸ ht
    exact exec_held hr (hheld hr) hc h
  | true =>
    cases c <;> simp only [Instr.movesReset, Bool.false_eq_true] at hc
    case resetAsserted straps =>
      cases h
      have hreset := atFullReset_pins (fullReset_atFullReset s) { s.pins with resetHeld := true, straps := straps }
      exact ⟨fun _ => hreset, fun _ => lineCore_of_reset hreset,
        fun _ _ => serveOk_of_reset (fullReset_atFullReset s) rfl rfl rfl rfl fun _ => rfl⟩
    case resetReleased straps =>
      simp only [exec, execResetReleased] at h
      split at h <;> cases h
      · rename_i hr
        obtain ⟨hl, hs⟩ := beginStart_ok (hheld hr) straps
        refine ⟨fun ht => ?_, fun _ => hl, fun _ _ => hs⟩
        have : (s.beginStart straps).pins.resetHeld = false := by
          unfold State.beginStart State.startJob; split <;> rfl
        rw [this] at ht
        cases ht
      · exact ⟨hheld, id, fun _ h => h⟩

/-- A step is a command on the queue's rest, which stands in no predicate. -/
theorem step_invariants {s t : State} (hheld : HeldInv s) (h : step s = .next t) :
    HeldInv t ∧ (LineCore s → LineCore t) ∧ (LineCore s → ServeOk s → ServeOk t) := by
  unfold step at h
  split at h
  · cases h; exact ⟨hheld, id, fun _ h => h⟩
  · rename_i c rest _
    exact exec_invariants (s := { s with pending := rest }) hheld h

/-- Settles O59: every event is quiet, or a window command, a line event, a request taken, a response sent or a job
ended, and each of these keeps the counts, the jobs, the send order and the rings together (`Kept`); a reset makes them
anew. -/
theorem servingStaysInStep : Obligations.ServingStaysInStep := by
  unfold Obligations.ServingStaysInStep
  intro s t hs h
  obtain ⟨hheld, hline, hserve⟩ := (serveInv_iff s).mp hs
  obtain ⟨hheld', hline', hserve'⟩ := step_invariants hheld h
  exact (serveInv_iff t).mpr ⟨hheld', hline' hline, hserve' hline hserve⟩

end Sys2Proof.Machine
end

section
/-! The window commands: what a taken one makes of its entry, what a refused one answers, and the queries' copies as sums
of their fields. -/

namespace Sys2Proof.Machine

/-! ### A window command through the port -/

/-- A window command in a state that it is taken in acts on its entry, and its result goes to RESULT (R4, R179). -/
theorem takeCommand_window_taken {s : State} (hr : Ready s) {i : Fin 32} (hi : argWindow s = i.val)
    {taken : WindowState → Bool} (ht : taken s.windows[i].state = true) (code : Word)
    (act : Fin 32 → WindowEntry → State → State × Result) :
    takeCommand code (onWindow taken act) s =
      { (act i s.windows[i] { s with cmd := code }).1 with
        result := (act i s.windows[i] { s with cmd := code }).2 } := by
  have hlt : argWindow s < 32 := hi ▸ i.isLt
  obtain rfl : i = ⟨argWindow s, hlt⟩ := Fin.ext hi.symm
  rw [takeCommand_ready hr, onWindow_taken (s := { s with cmd := code }) hlt ht]
  rfl

/-- A window command in another state of its entry answers WRONG_STATE (R4). -/
theorem takeCommand_window_wrongState {s : State} (hr : Ready s) {i : Fin 32} (hi : argWindow s = i.val)
    {taken : WindowState → Bool} (ht : taken s.windows[i].state = false) (code : Word)
    (act : Fin 32 → WindowEntry → State → State × Result) :
    takeCommand code (onWindow taken act) s = s.answered code .wrongState := by
  have hlt : argWindow s < 32 := hi ▸ i.isLt
  obtain rfl : i = ⟨argWindow s, hlt⟩ := Fin.ext hi.symm
  rw [takeCommand_ready hr, onWindow_wrongState (s := { s with cmd := code }) hlt ht]
  rfl

/-- A window command with a window argument above 31 answers BAD_ARG (R4). -/
theorem takeCommand_window_badArg {s : State} (hr : Ready s) (h : 32 ≤ argWindow s) (taken : WindowState → Bool)
    (code : Word) (act : Fin 32 → WindowEntry → State → State × Result) :
    takeCommand code (onWindow taken act) s = s.answered code .badArg := by
  rw [takeCommand_ready hr, onWindow_badArg (s := { s with cmd := code }) h]
  rfl

/-! ### WIN_OPEN's checks (R5) -/

theorem openAccepted_memory (base extent : Nat) :
    openAccepted 0 base extent = true ↔ base ≤ 16777215 ∧ base + extent ≤ 16777215 := by
  simp only [openAccepted, if_true, Bool.and_eq_true, decide_eq_true_eq]
  simp only [Config.memorySize]
  omega

theorem openAccepted_mailbox (base extent : Nat) : openAccepted 1 base extent = true ↔
    base % 8 = 0 ∧ 2 ≤ extent ∧ extent ≤ 256 ∧ base + extent * 72 ≤ 16777216 := by
  simp only [openAccepted, one_ne_zero, if_false, if_true, Bool.and_eq_true, decide_eq_true_eq, and_assoc]
  rfl

theorem openAccepted_other {kind : Nat} (h : 2 ≤ kind) (base extent : Nat) : openAccepted kind base extent = false := by
  rw [openAccepted, if_neg (by omega), if_neg (by omega)]

/-! ### Taken commands -/

theorem winOpen_taken {s : State} (hr : Ready s) {i : Fin 32} (hi : argWindow s = i.val)
    (hst : s.windows[i].state = .free) (hacc : openAccepted (argKind s) s.args[1].toNat s.args[2].toNat = true) :
    exec .winOpen s = .next ((s.answered 1 .done).setWindow i
      (openedEntry (argKind s) s.args[1].toNat s.args[2].toNat s.args[3] s.args[4])) := by
  refine congrArg _ ((takeCommand_window_taken hr hi (by rw [hst]; rfl) 1 _).trans ?_)
  have hacc' : openAccepted (argKind { s with cmd := 1 }) s.args[1].toNat s.args[2].toNat = true := hacc
  simp only [if_pos hacc']
  rfl

theorem winPark_taken {s : State} (hr : Ready s) {i : Fin 32} (hi : argWindow s = i.val)
    (hst : s.windows[i].state = .opened) : exec .winPark s = .next
      (if s.windows[i].inUse = 0 then (s.answered 2 .done).setWindow i { s.windows[i] with state := .parked }
      else (s.answered 2 .pending).setWindow i { s.windows[i] with state := .parked, quietWanted := true }) := by
  refine congrArg _ ((takeCommand_window_taken hr hi (by rw [hst]; rfl) 2 _).trans ?_)
  by_cases h : s.windows[i].inUse = 0
  · simp only [if_pos h]; rfl
  · simp only [if_neg h]; rfl

theorem winUnpark_taken {s : State} (hr : Ready s) {i : Fin 32} (hi : argWindow s = i.val)
    (hst : s.windows[i].state = .parked) : exec .winUnpark s = .next ((s.answered 3 .done).setWindow i
      { s.windows[i] with state := .opened, touched := false, quietWanted := false }) :=
  congrArg _ (takeCommand_window_taken hr hi (by rw [hst]; rfl) 3 _)

theorem winClose_taken {s : State} (hr : Ready s) {i : Fin 32} (hi : argWindow s = i.val)
    (hst : s.windows[i].state.serving = true) : exec .winClose s = .next
      (if s.windows[i].inUse = 0 then (s.answered 4 .done).setWindow i freeWindow
      else (s.answered 4 .pending).setWindow i
        { s.windows[i] with state := .closing, quietWanted := true, touched := false }) := by
  refine congrArg _ ((takeCommand_window_taken hr hi hst 4 _).trans ?_)
  by_cases h : s.windows[i].inUse = 0
  · simp only [if_pos h]; rfl
  · simp only [if_neg h]; rfl

theorem winGrants_taken {s : State} (hr : Ready s) {i : Fin 32} (hi : argWindow s = i.val)
    (hst : s.windows[i].state.serving = true) : exec .winGrants s = .next ((s.answered 5 .done).setWindow i
      { s.windows[i] with readGrants := s.args[3], writeGrants := s.args[4] }) :=
  congrArg _ (takeCommand_window_taken hr hi hst 5 _)

/-- Settles O8: each command is taken in its states, by the lemma of that command. -/
theorem windowCommandsChangeEntry : Obligations.WindowCommandsChangeEntry := by
  unfold Obligations.WindowCommandsChangeEntry
  refine ⟨fun s i hr hi hst => ⟨fun hk hb _ hbe => ?_, fun hk hb h8 h2 h256 hbe => ?_⟩,
    fun s i hr hi hst => ⟨fun h0 => ?_, fun h0 => ?_⟩,
    fun s i hr hi => ⟨winUnpark_taken hr hi, fun hst => winGrants_taken hr hi ((serving_iff _).mpr hst)⟩,
    fun s i hr hi hst => ⟨fun h0 => ?_, fun h0 => ?_⟩, fun s => ⟨wordField_eq _ 0 8, wordField_eq _ 8 8⟩⟩
  · have hacc := (openAccepted_memory s.args[1].toNat s.args[2].toNat).mpr ⟨hb, hbe⟩
    rw [winOpen_taken hr hi hst (by rw [hk]; exact hacc), hk]
    rfl
  · have hacc := (openAccepted_mailbox s.args[1].toNat s.args[2].toNat).mpr ⟨h8, h2, h256, by omega⟩
    rw [winOpen_taken hr hi hst (by rw [hk]; exact hacc), hk]
    rfl
  · rw [winPark_taken hr hi hst, if_pos h0]
  · rw [winPark_taken hr hi hst, if_neg (by omega)]
  · rw [winClose_taken hr hi ((serving_iff _).mpr hst), if_pos h0]
  · rw [winClose_taken hr hi ((serving_iff _).mpr hst), if_neg (by omega)]

/-! ### Refused commands -/

/-- WIN_OPEN on a FREE entry with a kind, base or extent out of range answers BAD_ARG (R5). -/
theorem winOpen_badArg {s : State} (hr : Ready s) {i : Fin 32} (hi : argWindow s = i.val)
    (hst : s.windows[i].state = .free) (hacc : openAccepted (argKind s) s.args[1].toNat s.args[2].toNat = false) :
    exec .winOpen s = .next (s.answered 1 .badArg) := by
  refine congrArg _ ((takeCommand_window_taken hr hi (by rw [hst]; rfl) 1 _).trans ?_)
  have hacc' : ¬ openAccepted (argKind { s with cmd := 1 }) s.args[1].toNat s.args[2].toNat = true :=
    ne_true_of_eq_false hacc
  simp only [if_neg hacc']
  rfl

/-- Settles O10: the window argument and the entry's state are checked alike for all seven commands, and WIN_OPEN's own
checks come after. -/
theorem windowCommandsRefused : Obligations.WindowCommandsRefused := by
  unfold Obligations.WindowCommandsRefused
  refine fun s hr => ⟨fun p hp harg => ?_, fun p hp i hi hst => ?_, fun i hi hst hbad => ?_⟩
  · simp only [windowCommands, List.mem_cons, List.not_mem_nil, or_false] at hp
    rcases hp with rfl | rfl | rfl | rfl | rfl | rfl | rfl
    all_goals exact congrArg _ (takeCommand_window_badArg hr harg _ _ _)
  · simp only [windowCommands, List.mem_cons, List.not_mem_nil, or_false] at hp
    rcases hp with rfl | rfl | rfl | rfl | rfl | rfl | rfl
    all_goals
      refine congrArg _ (takeCommand_window_wrongState hr hi ?_ _ _)
      revert hst
      generalize s.windows[i].state = st
      cases st <;> decide
  · refine winOpen_badArg hr hi hst ?_
    rw [← Bool.not_eq_true]
    intro hacc
    obtain hk | hk | hk : argKind s = 0 ∨ argKind s = 1 ∨ 2 ≤ argKind s := by omega
    · rw [hk, openAccepted_memory] at hacc
      omega
    · rw [hk, openAccepted_mailbox] at hacc
      omega
    · rw [openAccepted_other hk] at hacc
      cases hacc

/-! ### The queries' copies (R13, R72, R198) -/

theorem windowState_code (st : WindowState) : st.code = [WindowState.free, .opened, .parked, .closing].idxOf st := by
  cases st <;> rfl

theorem windowKind_code (k : WindowKind) : k.code = [WindowKind.memory, .mailbox].idxOf k := by cases k <;> rfl

theorem channelState_code (st : ChannelState) :
    st.code = [ChannelState.idle, .ready, .running, .finishing, .signalling, .halting, .faulted, .done].idxOf st := by
  cases st <;> rfl

theorem direction_code (d : Direction) : d.code = [Direction.push, .pull].idxOf d := by cases d <;> rfl

theorem faultCode_code (c : FaultCode) : c.code = faultCodes.idxOf c := by cases c <;> rfl

theorem windowState_code_lt (st : WindowState) : st.code < 4 := by cases st <;> decide

theorem windowKind_code_lt (k : WindowKind) : k.code < 2 := by cases k <;> decide

theorem channelState_code_lt (st : ChannelState) : st.code < 8 := by cases st <;> decide

theorem direction_code_lt (d : Direction) : d.code < 2 := by cases d <;> decide

theorem faultCode_code_lt (c : FaultCode) : c.code < 16 := by cases c <;> decide

/-! A packed word of one to eight fields is their sum modulo 2^32. (The fields are variables here: with their powers of 2
written out the kernel would unfold the sum's last 0 beside them.) -/

theorem packed_one (a : Nat) : (packed [a]).toNat = a % 4294967296 := by simp [packed_toNat]

theorem packed_two (a b : Nat) : (packed [a, b]).toNat = (a + b) % 4294967296 := by simp [packed_toNat]

theorem packed_three (a b c : Nat) : (packed [a, b, c]).toNat = (a + b + c) % 4294967296 := by
  simp [packed_toNat, Nat.add_assoc]

theorem packed_seven (a b c d e f g : Nat) :
    (packed [a, b, c, d, e, f, g]).toNat = (a + b + c + d + e + f + g) % 4294967296 := by
  simp [packed_toNat, Nat.add_assoc]

theorem packed_eight (a b c d e f g h : Nat) :
    (packed [a, b, c, d, e, f, g, h]).toNat = (a + b + c + d + e + f + g + h) % 4294967296 := by
  simp [packed_toNat, Nat.add_assoc]

/-- The words of a WIN_QUERY copy, for an entry whose fields are in their ranges. -/
theorem windowCopy_words {w : WindowEntry} (hbase : w.base < 16777216) (hlimit : w.limit < 16777216)
    (hslots : w.slotCount ≤ 256) (huse : w.inUse ≤ 8) (hres : w.reserved ≤ 8) (hhead : w.head < 256)
    (hcom : w.committed ≤ 256) :
    (windowCopy w)[0].toNat = w.state.code + 4 * w.kind.code + 8 * w.touched.toNat + 16 * w.quietWanted.toNat +
      256 * w.inUse + 4096 * w.reserved + 65536 * w.slotCount ∧
    (windowCopy w)[1].toNat = w.base + 16777216 * w.head ∧ (windowCopy w)[2].toNat = w.limit ∧
    (windowCopy w)[5].toNat = w.sequence.toNat + 65536 * w.committed := by
  have hst := windowState_code_lt w.state
  have hk := windowKind_code_lt w.kind
  have ht := w.touched.toNat_le
  have hq := w.quietWanted.toNat_le
  have hseq := w.sequence.isLt
  rw [windowCopy_0, windowCopy_1, windowCopy_2, windowCopy_5]
  simp (disch := omega) only [packed_one, packed_two, packed_seven, placed_of_lt, placedFlag_eq]
  refine ⟨?_, ?_, ?_, ?_⟩ <;> omega

/-- The words of a CH_QUERY copy, for a record whose fields are in their ranges. -/
theorem channelCopy_words {r : Channel} (hcount : r.initialCount ≤ 16777216) (hremote : r.initialRemote < 16777216)
    (hlocal : r.initialLocal < 16777216) (hrem : r.remaining ≤ 16777216) (hsize : r.frameSize ≤ 64) (hdepth : r.depth ≤ 4)
    (hlive : r.live ≤ 4) (hoff : r.faultOffset ≤ 16777216) :
    (channelCopy r)[0].toNat = r.initialCount + 33554432 * r.state.code + 268435456 * r.faultCode.code ∧
    (channelCopy r)[1].toNat = r.initialRemote + 16777216 * r.frameSize + 2147483648 * r.direction.code ∧
    (channelCopy r)[2].toNat = r.initialLocal + 16777216 * r.target.toNat + 536870912 * r.depth ∧
    (channelCopy r)[3].toNat = r.faultOffset % 16777216 + 16777216 * r.window.toNat + 536870912 * r.live ∧
    (channelCopy r)[4].toNat = r.remaining + 33554432 * r.mailbox.toNat + 67108864 * r.reload.toNat +
      134217728 * r.paced.toNat + 268435456 * r.signal.isSome.toNat + 536870912 * r.armed.toNat +
      1073741824 * r.faultAtSignal.toNat + 2147483648 * (r.faultOffset / 16777216) := by
  have hst := channelState_code_lt r.state
  have hfc := faultCode_code_lt r.faultCode
  have hd := direction_code_lt r.direction
  have htar := r.target.isLt
  have hwin := r.window.isLt
  have hwhole : (decide (r.faultOffset = Config.memorySize)).toNat = r.faultOffset / 16777216 := by
    by_cases h : r.faultOffset = 16777216
    · rw [h]; rfl
    · have hlt : r.faultOffset < 16777216 := by omega
      rw [Nat.div_eq_of_lt hlt, Config.memorySize, decide_eq_false h]
      rfl
  have hmod : placed 0 24 r.faultOffset = r.faultOffset % 16777216 := Nat.mul_one _
  have h1 := r.mailbox.toNat_le
  have h2 := r.reload.toNat_le
  have h3 := r.paced.toNat_le
  have h4 := r.signal.isSome.toNat_le
  have h5 := r.armed.toNat_le
  have h6 := r.faultAtSignal.toNat_le
  rw [channelCopy_0, channelCopy_1, channelCopy_2, channelCopy_3, channelCopy_4]
  simp (disch := omega) only [packed_three, packed_eight, hmod, placed_of_lt, placedFlag_eq, hwhole]
  refine ⟨?_, ?_, ?_, ?_, ?_⟩ <;> omega

/-- Settles O11: each query copies into the argument words alone, and each word is the sum of its fields. -/
theorem queriesCopyRecords : Obligations.QueriesCopyRecords := by
  unfold Obligations.QueriesCopyRecords
  refine ⟨fun s i w hr hi hw hbase hlimit hslots huse hres hhead hcom => ?_,
    fun s i r hr hi hw hcount hremote hlocal hrem hsize hdepth hlive hoff => ?_⟩
  · obtain ⟨h0, h1, h2, h5⟩ := windowCopy_words hbase hlimit hslots huse hres hhead hcom
    rw [windowState_code, windowKind_code] at h0
    subst hw
    have ht : exec .winQuery s = .next { s.answered 6 .done with args := windowCopy s.windows[i] } :=
      congrArg Host.Outcome.next (takeCommand_window_taken hr hi rfl 6 _)
    exact ⟨_, ht, rfl, h0, h1, h2, rfl, rfl, h5⟩
  · obtain ⟨h0, h1, h2, h3, h4⟩ := channelCopy_words hcount hremote hlocal hrem hsize hdepth hlive hoff
    rw [channelState_code, faultCode_code] at h0
    rw [direction_code] at h1
    have hlt : argChannel s < 8 := hi ▸ i.isLt
    obtain rfl : i = ⟨argChannel s, hlt⟩ := Fin.ext hi.symm
    subst hw
    have ht : exec .chQuery s = .next { s.answered 20 .done with args := channelCopy s.channels[argChannel s] } := by
      refine congrArg Host.Outcome.next (a₁ := takeCommand 20 chQuery s) ?_
      rw [takeCommand_ready hr, chQuery, onChannel_taken (s := { s with cmd := 20 }) hlt rfl]
      rfl
    exact ⟨_, ht, rfl, h0, h1, h2, h3, h4, rfl⟩

/-! ### Admission and the drain -/

/-- Settles O12: the model's checks in the words of R14. -/
theorem admissionChecksInOrder : Obligations.AdmissionChecksInOrder :=
  fun w write sender offset length => windowRefusal_eq w write sender offset length

/-- Settles O13: the fall of the count, by the entry's state where it reaches 0. -/
theorem executionEndDrains : Obligations.ExecutionEndDrains := by
  unfold Obligations.ExecutionEndDrains
  rintro s i w rfl huse
  refine ⟨fun h => ?_, fun h => ?_⟩
  · rw [State.endUse, if_pos h]
  · have hn : ¬ 1 < s.windows[i].inUse := by omega
    refine ⟨fun hs => ?_, fun hs hq => ?_, fun hs hq => ?_, fun hs => ?_⟩
    all_goals rw [State.endUse, if_neg hn]; simp only [hs]
    · rw [if_pos hq]
    · rw [if_neg (by rw [hq]; exact Bool.false_ne_true)]
    · rfl

end Sys2Proof.Machine
end

section
/-! Requests on the line: from a good frame to the operation it leaves, by the Window Table's answer; and the resets. -/

namespace Sys2Proof.Machine

/-! ### A free buffer for every free slot (R147) -/

/-- The place of a buffer's owner among the 8 slots and the 16 entries. -/
def BufferOwner.place : BufferOwner → Fin 8 ⊕ Fin 16
  | .operation k => .inl k
  | .entry i => .inr i

/-- There are as many buffers as slots and entries, each owner has at most one, and a free slot has none. -/
theorem freeBuffer_of_freeSlot {s : State} {k : Fin 8} (hpool : PoolInv s) (hk : freeSlot s = some k) :
    ∃ b, freeBuffer s = some b ∧ s.buffers[b].owner = none := by
  obtain ⟨hentry, hop, -⟩ := hpool
  cases hb : freeBuffer s with
  | some b => exact ⟨b, rfl, Option.isNone_iff_eq_none.mp
      (List.find?_some (p := fun b : Fin 24 => s.buffers[b].owner.isNone) hb)⟩
  | none =>
    have howned : ∀ b : Fin 24, ∃ o, s.buffers[b].owner = some o := fun b => by
      have := List.find?_eq_none.mp hb b (List.mem_finRange b)
      exact Option.ne_none_iff_exists'.mp fun hn => this (by simp only [hn, Option.isNone_none])
    choose o ho using howned
    have hinj : Function.Injective fun b => (o b).place := by
      intro b b' h
      cases hob : o b <;> cases hob' : o b' <;> simp only [hob, hob', BufferOwner.place] at h <;> cases h
      · have h1 := (hop b _).mp ((ho b).trans (by rw [hob]))
        have h2 := (hop b' _).mp ((ho b').trans (by rw [hob']))
        exact Option.some.inj (h1.symm.trans h2)
      · have h1 := (hentry b _).mp ((ho b).trans (by rw [hob]))
        have h2 := (hentry b' _).mp ((ho b').trans (by rw [hob']))
        exact Option.some.inj (h1.symm.trans h2)
    have hsurj := ((Fintype.bijective_iff_injective_and_card _).mpr ⟨hinj, by simp⟩).2
    obtain ⟨b, hbk⟩ := hsurj (.inl k)
    cases hob : o b <;> simp only [hob, BufferOwner.place] at hbk <;> cases hbk
    have := (hop b k).mp ((ho b).trans (by rw [hob]))
    rw [freeSlot_none hk] at this
    cases this

/-! ### From a good frame to the unit that serves it -/

/-- A request addressed to a RUNNING, RECEIVING station goes to the Request Service Unit, and the receipt remembers
whether it was taken (R25, R124, R126). -/
theorem frameCrcReceived_request {s : State} {conds : List LineCond} {f : Frame} {r : Request} (h : Receives s conds f)
    (hdest : f.body.dest = s.loader.number) (hreq : frameRequest f = some r) :
    exec (.frameCrcReceived conds) s = .next ((s.takeRequest r).1.setLine
      { s.line with rx := .good f.claim.sender (s.takeRequest r).2 }) := by
  obtain ⟨hrun, hst, hrx, hconds⟩ := h
  have ht : s.takeFrame f = s.takeRequest r := by
    rw [State.takeFrame, if_pos ⟨hdest, hrun, hst⟩, hreq]
  show execFrameCrcReceived conds s = _
  simp only [execFrameCrcReceived, hrx, if_true, hconds, State.receiveFrame, ht, (ResponderFrame.takeRequest s r).line]

/-- Past the replay lookup, with a free slot and no refusal of the Window Table, a request is executed (R31). -/
theorem takeRequest_executed {s : State} {r : Request} {k : Fin 8} (hkind : r.kind ≠ .signal)
    (hlook : replayLookup s r = .fresh) (hfree : freeSlot s = some k)
    (hpass : windowRefusal s.windows[r.window] (decide (r.kind = .put)) r.sender r.offset r.length = none) :
    s.takeRequest r = ((s.placePayload r).executeRequest k r, true) := by
  have hw := (placePayload_quiet s r).windows
  simp only [State.takeRequest, hlook, hfree, State.serveFresh, if_neg hkind, State.serveWindow, hw, hpass]

/-- A buffer that holds a PUT's payload and belongs to its operation; a GET's keeps its bytes (R30, R148). -/
def givenBuffer (s : State) (k : Fin 8) (r : Request) (b : Fin 24) : Buffer :=
  { owner := some (.operation k)
    data := if r.kind = .put then putBytes s.buffers[b].data 0 r.payload else s.buffers[b].data }

/-- A payload placed in a buffer leaves every buffer with its owner. -/
theorem placePayload_eq {s : State} {b : Fin 24} (r : Request) (hb : freeBuffer s = some b) : s.placePayload r =
    { s with buffers := s.buffers.set b { s.buffers[b] with
        data := if r.kind = .put then putBytes s.buffers[b].data 0 r.payload else s.buffers[b].data } } := by
  unfold State.placePayload
  split
  · rw [hb]; rfl
  · have : s.buffers.set b s.buffers[b] = s.buffers := Vector.set_getElem_self _
    rw [this]

theorem freeBuffer_placePayload {s : State} {b : Fin 24} (r : Request) (hb : freeBuffer s = some b) :
    freeBuffer (s.placePayload r) = some b := by
  rw [← hb, placePayload_eq r hb]
  unfold freeBuffer
  congr 1
  funext b'
  show ((s.buffers.set b _)[b']).owner.isNone = _
  rw [getElem_set_fin]
  split
  · rename_i h; subst h; rfl
  · rfl

theorem queueResponder_queued (s : State) (j : Job) : ResponderQueued s (s.queueResponder j) j := by
  refine ⟨fun hn => ?_, fun hn hr => ?_⟩
  · obtain ⟨j', hj⟩ := Option.ne_none_iff_exists'.mp hn
    simp [State.queueResponder, State.selectJob, hj]
  · cases hg : s.pins.lbgnt <;>
      simp [State.queueResponder, State.selectJob, State.startJob, hn, hr, hg, engineStarted, grantLimit]

/-- An admission that gives buffer `b`, on a unit whose buffers are `bs`, field by field. -/
theorem executeRequest_withBuffers {s : State} {k : Fin 8} {r : Request} {b : Fin 24} {bs : Vector Buffer 24}
    (hb : freeBuffer { s with buffers := bs } = some b) : State.executeRequest { s with buffers := bs } k r =
      { s.queueResponder (admittedJob k r s.windows[r.window] (some b)) with
        windows := s.windows.set r.window s.windows[r.window].afterAdmission
        slots := s.slots.set k (some (admittedOperation r s.windows[r.window] (some b)))
        replay := (s.recordAdmission r).replay
        buffers := bs.set b { bs[b] with owner := some (.operation k) } } := by
  rw [← queueResponder_with]
  unfold State.executeRequest State.recordAdmission
  rw [hb]
  split <;> rfl

/-- The payload of an admitted PUT and the owner of its buffer are placed in one step (R30). -/
theorem placePayload_executeRequest {s : State} {k : Fin 8} {r : Request} {b : Fin 24} (hb : freeBuffer s = some b) :
    (s.placePayload r).executeRequest k r =
      { s.queueResponder (admittedJob k r s.windows[r.window] (some b)) with
        windows := s.windows.set r.window s.windows[r.window].afterAdmission
        slots := s.slots.set k (some (admittedOperation r s.windows[r.window] (some b)))
        replay := (s.recordAdmission r).replay
        buffers := s.buffers.set b (givenBuffer s k r b) } := by
  have hfree := freeBuffer_placePayload r hb
  rw [placePayload_eq r hb] at hfree ⊢
  rw [executeRequest_withBuffers hfree, getElem_set_fin, if_pos rfl, Vector.set_set]
  rfl

/-- A request that passes every check is executed in the event that takes it, field by field (R18, R25, R30, R35, R36). -/
theorem request_admitted {s : State} {conds : List LineCond} {f : Frame} {r : Request} {k : Fin 8}
    (hrec : Receives s conds f) (hpool : PoolInv s) (hdest : f.body.dest = s.loader.number)
    (hreq : frameRequest f = some r) (hkind : r.kind ≠ .signal) (hlook : replayLookup s r = .fresh)
    (hfree : freeSlot s = some k)
    (hpass : windowRefusal s.windows[r.window] (decide (r.kind = .put)) r.sender r.offset r.length = none) :
    ∃ (t : State) (b : Fin 24), exec (.frameCrcReceived conds) s = .next t ∧
      { t with line := s.line, windows := s.windows, slots := s.slots, replay := s.replay, buffers := s.buffers
               engine := s.engine } = s ∧
      t.line = { s.line with rx := .good f.claim.sender true } ∧
      t.windows = s.windows.set r.window s.windows[r.window].afterAdmission ∧
      t.slots = s.slots.set k (some (admittedOperation r s.windows[r.window] (some b))) ∧
      t.replay = (s.recordAdmission r).replay ∧ s.buffers[b].owner = none ∧
      t.buffers = s.buffers.set b (givenBuffer s k r b) ∧
      ResponderQueued s t (admittedJob k r s.windows[r.window] (some b)) := by
  obtain ⟨b, hb, hnone⟩ := freeBuffer_of_freeSlot hpool hfree
  have hrun := frameCrcReceived_request hrec hdest hreq
  rw [takeRequest_executed hkind hlook hfree hpass, placePayload_executeRequest hb] at hrun
  have hqueued := queueResponder_queued s (admittedJob k r s.windows[r.window] (some b))
  obtain ⟨e, he⟩ := queueResponder_eq s (admittedJob k r s.windows[r.window] (some b))
  rw [he] at hrun hqueued
  exact ⟨_, b, hrun, rfl, rfl, rfl, rfl, rfl, hnone, rfl, hqueued⟩

/-! ### A PUT or GET frame past every check -/

/-- The request a PUT frame carries (R25). -/
def putRequestOf (f : Frame) (inc : Byte) (tag : Tag) (i : Fin 32) (off : BitVec 24) (len : BitVec 7)
    (pay : List Byte) : Request :=
  ⟨f.claim.sender, .put, inc, tag, i, off.toNat, len.toNat, pay, 0⟩

/-- The request a GET frame carries (R25). -/
def getRequestOf (f : Frame) (inc : Byte) (tag : Tag) (i : Fin 32) (off : BitVec 24) (len : BitVec 7) : Request :=
  ⟨f.claim.sender, .get, inc, tag, i, off.toNat, len.toNat, [], 0⟩

section
variable {f : Frame} {dest : Station} {inc : Byte} {tag : Tag} {i : Fin 32} {off : BitVec 24} {len : BitVec 7}
  {pay : List Byte}

/-- A sendable PUT frame has 1 to 64 payload bytes, as many as its length says, and is a request (R25, R122). -/
theorem frameRequest_put (hbody : f.body = .put dest inc tag (BitVec.ofFin i) off len pay) (hs : f.sendable = true) :
    frameRequest f = some (putRequestOf f inc tag i off len pay) ∧ pay.length = len.toNat ∧ pay.length ≤ 64 := by
  have hlen : lengthInRange len = true ∧ pay.length = len.toNat := by
    have := (Bool.and_eq_true_iff.mp hs).2
    simpa only [hbody, Bool.and_eq_true, beq_iff_eq] using this
  obtain ⟨hrange, hpay⟩ := hlen
  refine ⟨?_, hpay, ?_⟩
  · simp only [frameRequest, hbody, hrange, hpay, and_self, if_true, putRequestOf]
  · rw [hpay]
    exact of_decide_eq_true (Bool.and_eq_true_iff.mp hrange).2

/-- A sendable GET frame is a request (R25, R122). -/
theorem frameRequest_get (hbody : f.body = .get dest inc tag (BitVec.ofFin i) off len) (hs : f.sendable = true) :
    frameRequest f = some (getRequestOf f inc tag i off len) := by
  have hrange : lengthInRange len = true := by
    have := (Bool.and_eq_true_iff.mp hs).2
    simpa only [hbody] using this
  simp only [frameRequest, hbody, hrange, if_true, getRequestOf]

end

/-- A record that is not PENDING, and not SETTLED under the request's own epoch and incarnation, answers nothing (R32). -/
theorem replayLookup_fresh {s : State} {r : Request} (hpending : (requestRecord s r).state ≠ .pending)
    (hsettled : (requestRecord s r).state = .settled →
      (requestRecord s r).incarnation ≠ r.incarnation ∨ (requestRecord s r).epoch ≠ r.tag.epoch) :
    replayLookup s r = .fresh := by
  have hother : (requestRecord s r).state = .settled →
      ¬((requestRecord s r).incarnation = r.incarnation ∧ (requestRecord s r).epoch = r.tag.epoch) :=
    fun h => not_and_or.mpr (hsettled h)
  cases hk : r.kind <;> cases hrec : (requestRecord s r).state <;>
    simp_all only [replayLookup, if_false, ne_eq, not_true_eq_false]

/-- An OPEN MEMORY window passes a granted request that ends inside it (R14). -/
theorem windowRefusal_memory {w : WindowEntry} {write : Bool} {sender : Station} {offset length : Nat}
    (hst : w.state = .opened) (hkind : w.kind = .memory)
    (hgrant : (if write then w.writeGrants else w.readGrants).getLsbD sender.toNat = true)
    (hrange : offset + length ≤ w.limit + 1) : windowRefusal w write sender offset length = none := by
  rw [windowRefusal_eq]
  generalize (if write then w.writeGrants else w.readGrants) = grants at hgrant
  simp [hst, hkind, hgrant, hrange]

/-- An OPEN MAILBOX window with room passes a granted PUT at offset 0 (R14, R51). -/
theorem windowRefusal_mailbox {w : WindowEntry} {sender : Station} {length : Nat} (hst : w.state = .opened)
    (hkind : w.kind = .mailbox) (hgrant : w.writeGrants.getLsbD sender.toNat = true)
    (hroom : w.committed + w.reserved < w.slotCount) : windowRefusal w true sender 0 length = none := by
  rw [windowRefusal_eq]
  simp [hst, hkind, hgrant, hroom.ne]

/-- A PUT past every check: its record is PENDING, its buffer holds its payload, and its window decides the rest (R18,
R25, R30, R35). -/
theorem put_admitted {s : State} {conds : List LineCond} {f : Frame} {inc : Byte} {tag : Tag} {i : Fin 32}
    {off : BitVec 24} {len : BitVec 7} {pay : List Byte} {k : Fin 8} {n : Fin 512} {w : WindowEntry} {r : Request}
    (hrec : Receives s conds f) (hpool : PoolInv s)
    (hbody : f.body = .put s.loader.number inc tag (BitVec.ofFin i) off len pay) (hs : f.sendable = true)
    (hn : n = replayIndex f.claim.sender tag.entry) (hw : s.windows[i] = w) (hpending : s.replay[n].state ≠ .pending)
    (hsettled : s.replay[n].state = .settled → s.replay[n].incarnation ≠ inc ∨ s.replay[n].epoch ≠ tag.epoch)
    (hfree : freeSlot s = some k) (hr : r = putRequestOf f inc tag i off len pay)
    (hpass : windowRefusal w true f.claim.sender off.toNat len.toNat = none) :
    ∃ (t : State) (b : Fin 24), exec (.frameCrcReceived conds) s = .next t ∧
      { t with line := s.line, windows := s.windows, slots := s.slots, replay := s.replay, buffers := s.buffers
               engine := s.engine } = s ∧
      t.line = { s.line with rx := .good f.claim.sender true } ∧
      t.windows = s.windows.set i w.afterAdmission ∧
      t.slots = s.slots.set k (some (admittedOperation r w (some b))) ∧
      t.replay = s.replay.set n ⟨.pending, inc, tag.epoch, none⟩ ∧
      s.buffers[b].owner = none ∧ t.buffers[b].owner = some (.operation k) ∧
      t.buffers[b].data.toList.take len.toNat = pay ∧
      (∀ d : Fin 24, d ≠ b → t.buffers[d] = s.buffers[d]) ∧
      ResponderQueued s t (admittedJob k r w (some b)) := by
  subst hn hw hr
  obtain ⟨hreq, hpay, hfits⟩ := frameRequest_put hbody hs
  obtain ⟨t, b, hrun, hframe, hline, hwindows, hslots, hreplay, hnone, hbuffers, hqueued⟩ :=
    request_admitted hrec hpool (by rw [hbody]; rfl) hreq (by simp [putRequestOf]) (replayLookup_fresh hpending hsettled)
      hfree hpass
  have hgiven : t.buffers[b] = givenBuffer s k (putRequestOf f inc tag i off len pay) b := by
    rw [hbuffers, getElem_set_fin, if_pos rfl]
  refine ⟨t, b, hrun, hframe, hline, hwindows, hslots, hreplay, hnone, by rw [hgiven]; rfl, ?_, fun d hd => ?_, hqueued⟩
  · rw [hgiven]
    show (putBytes s.buffers[b].data 0 pay).toList.take len.toNat = pay
    rw [putBytes_toList pay _ 0 (by omega), ← hpay]
    simp
  · rw [hbuffers, getElem_set_fin, if_neg (Ne.symm hd)]

/-- Settles O31: the PUT passes the record's lookup and the window's checks, and a MEMORY window's entry, operation and
job are read off. -/
theorem putExecutedOnMemoryWindow : Obligations.PutExecutedOnMemoryWindow := by
  unfold Obligations.PutExecutedOnMemoryWindow
  intro s conds f inc tag i off len pay k n w hrec hpool hbody hs hn hw hpending hsettled hfree hst hkind hgrant hrange
  obtain ⟨t, b, h⟩ := put_admitted hrec hpool hbody hs hn hw hpending hsettled hfree rfl
    (windowRefusal_memory hst hkind hgrant hrange)
  rw [afterAdmission_memory hkind, admittedOperation_memory _ _ hkind, admittedJob_memory _ _ _ hkind] at h
  exact ⟨t, b, h⟩

/-- Settles O33: as for a MEMORY window, with the ring's own next slot, sequence number and job of 72 bytes. -/
theorem mailboxPutReservesSlot : Obligations.MailboxPutReservesSlot := by
  unfold Obligations.MailboxPutReservesSlot
  intro s conds f inc tag i len pay k n w slot hrec hpool hbody hs hn hw hpending hsettled hfree hst hkind hgrant hroom
    hslot
  have haddress : w.base + 72 * slot = w.slotAddress w.nextSlot := by
    rw [hslot, Nat.mul_comm]; rfl
  obtain ⟨t, b, h⟩ := put_admitted hrec hpool hbody hs hn hw hpending hsettled hfree rfl
    (windowRefusal_mailbox hst hkind hgrant hroom)
  rw [afterAdmission_mailbox hkind, admittedOperation_mailbox _ _ hkind, admittedJob_mailbox _ _ _ hkind] at h
  rw [haddress, hslot]
  exact ⟨t, b, h⟩

/-- Settles O32: a GET has no record to look up, and its admission makes none. -/
theorem getExecuted : Obligations.GetExecuted := by
  unfold Obligations.GetExecuted
  intro s conds f inc tag i off len k w hrec hpool hbody hs hw hfree hst hkind hgrant hrange
  subst hw
  obtain ⟨t, b, hrun, hframe, hline, hwindows, hslots, hreplay, hnone, hbuffers, hqueued⟩ :=
    request_admitted hrec hpool (by rw [hbody]; rfl) (frameRequest_get hbody hs) (by simp [getRequestOf]) rfl hfree
      (windowRefusal_memory hst hkind hgrant hrange)
  have hmemory : s.windows[(getRequestOf f inc tag i off len).window].kind = .memory := hkind
  rw [afterAdmission_memory hmemory] at hwindows
  rw [admittedOperation_memory _ _ hmemory] at hslots
  rw [admittedJob_memory _ _ _ hmemory] at hqueued
  have hkept : t.replay = s.replay := hreplay
  rw [← hkept] at hframe
  exact ⟨t, b, hrun, hframe, hline, hwindows, hslots, hnone, hbuffers, hqueued⟩

/-! ### A refusal of the Window Table (R17, R34) -/

/-- A refusal is answered at once, after the touch that a PARKED one makes. -/
theorem serveFresh_refused {s : State} {k : Fin 8} {r : Request} {o : DoneOutcome} (hkind : r.kind ≠ .signal)
    (href : windowRefusal s.windows[r.window] (decide (r.kind = .put)) r.sender r.offset r.length = some o) :
    s.serveFresh k r =
      if o = .parked then (s.touchWindow r.window r.sender r.offset).answerAtOnce k r .parked
      else s.answerAtOnce k r o := by
  rw [State.serveFresh, if_neg hkind, State.serveWindow, href]
  cases o <;> rfl

/-- Settles O36: one equation for a refusal, and the touched flag decides what a PARKED one leaves. -/
theorem refusalAnswered : Obligations.RefusalAnswered := by
  unfold Obligations.RefusalAnswered
  rintro s k r o t hkind href rfl
  rw [serveFresh_refused hkind href]
  refine ⟨fun ho => ?_, fun ho htouched => ?_, fun ho htouched => ?_⟩
  · rw [if_neg ho]; rfl
  · subst ho
    rw [if_pos rfl, State.touchWindow, if_pos htouched]; rfl
  · subst ho
    rw [if_pos rfl, State.touchWindow, htouched]; rfl

/-! ### The resets (R183 to R185) -/

/-- A full reset cuts no write cycle unless one is being driven (R161). -/
theorem cutCycle_of_noWrite {s : State} (h : ∀ j, s.engine.job = some j → j.phase = .moving → j.kind = .read) :
    s.cutCycle = s := by
  have hnone : cycleInProgress s = none := by
    unfold cycleInProgress
    cases hj : s.engine.job with
    | none => rfl
    | some j => exact if_neg fun hw => JobKind.noConfusion (hw.2.symm.trans (h j hj hw.1))
  rw [State.cutCycle, hnone]

theorem cutCycle_of_write {s : State} {j : Job} (hj : s.engine.job = some j) (hphase : j.phase = .moving)
    (hkind : j.kind = .write) : s.cutCycle =
      { s with mem := Memory.writeCells s.mem (cutCells s.freeCount j), freeCount := s.freeCount + 1 } := by
  have hcut : cycleInProgress s = some j := by
    simp only [cycleInProgress, hj, hphase, hkind, and_self, if_true]
  rw [State.cutCycle, hcut]

/-- The cells of a cut cycle are the cycle's own, inside the address space. -/
theorem cutCells_address {n : Nat} {j : Job} {c : Host.Cell} (h : c ∈ cutCells n j) :
    c.1 ∈ j.cycleAddresses ∧ c.1 < Config.memorySize := by
  obtain ⟨a, ha, rfl⟩ := List.mem_map.mp h
  obtain ⟨hcycle, hsize⟩ := List.mem_filter.mp ha
  exact ⟨hcycle, of_decide_eq_true hsize⟩

/-- Starting a job leaves the engine that R152 and R153 describe. -/
theorem startJob_started (s : State) (j : Job) :
    s.startJob j = s.setEngine (engineStarted s.engine s.pins.lbgnt (grantLimit s j) j) := by
  unfold State.startJob engineStarted
  cases s.pins.lbgnt <;> rfl

/-- The start read waits 255 bus clock cycles for its grant (R160, R185). -/
theorem beginStart_eq (s : State) (straps : Station) : s.beginStart straps =
    { s with
      pins := { s.pins with resetHeld := false, straps := straps }
      loader := { s.loader with number := straps }
      engine := engineStarted s.engine s.pins.lbgnt 255
        ⟨.read, .start, 0, 44, none, .loader, .listed, 0, none, false⟩ } := by
  rw [State.beginStart, startJob_started]
  rfl

theorem cutCycle_pins (s : State) : s.cutCycle.pins = s.pins := by
  unfold State.cutCycle
  split <;> rfl

/-- Settles O47: a full reset writes every block out, and what it cuts of memory is the driven write cycle alone; a start
overwrites the two pins an assertion moves. -/
theorem resetsClearBlocks : Obligations.ResetsClearBlocks := by
  unfold Obligations.ResetsClearBlocks
  intro s straps
  refine ⟨⟨_, rfl, atFullReset_pins (fullReset_atFullReset s) _, rfl, fun hread => ?_,
    fun hwf j hj hphase hkind a ha => ?_⟩, fun hheld => ?_, fun hheld => ?_⟩
  · show s.cutCycle.mem = s.mem ∧ s.cutCycle.freeCount = s.freeCount
    rw [cutCycle_of_noWrite hread]
    exact ⟨rfl, rfl⟩
  · show Memory.read s.cutCycle.mem a = Memory.read s.mem a
    rw [cutCycle_of_write hj hphase hkind]
    exact Memory.read_writeCells_of_ne hwf (fun c hc => (cutCells_address hc).2)
      fun c hc he => ha (he ▸ (cutCells_address hc).1)
  · have hpins : s.fullReset.pins = s.pins := cutCycle_pins s
    refine ⟨_, _, rfl, rfl, ?_⟩
    show (if s.pins.resetHeld then Host.Outcome.next s else .next (s.fullReset.beginStart straps)) = _
    rw [hheld, if_neg Bool.false_ne_true, beginStart_eq, beginStart_eq, hpins]
  · show (if s.pins.resetHeld then Host.Outcome.next (s.beginStart straps) else .next s) = _
    rw [if_pos hheld, beginStart_eq]

end Sys2Proof.Machine
end

section
/-! The Replay Table beside the operations: what a replaced slot and a replaced record leave of the predicate, the
serving events that replace them, and every other command, which leaves both tables alone (R41, R42). -/

namespace Sys2Proof.Machine

/-! ### One record and one slot -/

theorem executingPut_iff {s : State} {n : Fin 512} {k : Fin 8} : executingPut s n k = true ↔
    ∃ op, s.slots[k] = some op ∧ op.phase = .executing ∧ op.kind = .put ∧
      replayIndex op.requester op.tag.entry = n := by
  unfold executingPut executing
  cases s.slots[k] with
  | none => simp
  | some op => by_cases hp : op.phase = .executing <;> simp [hp]

theorem executingPut_congr {s t : State} {k : Fin 8} (h : t.slots[k] = s.slots[k]) (n : Fin 512) :
    executingPut t n k = executingPut s n k := by
  unfold executingPut executing
  rw [h]

/-- What a slot holds is no executing PUT. -/
def NoPut (o : Option Operation) : Prop := ∀ op, o = some op → op.phase = .executing → op.kind ≠ .put

theorem noPut_none : NoPut none := fun _ h => by cases h

theorem noPut_some {op : Operation} (h : op.phase = .answering ∨ op.kind ≠ .put) : NoPut (some op) := by
  rintro _ ⟨⟩ hphase
  exact h.resolve_left fun ha => OpPhase.noConfusion (ha.symm.trans hphase)

theorem executingPut_of_noPut {s : State} {k : Fin 8} (h : NoPut s.slots[k]) (n : Fin 512) :
    executingPut s n k = false :=
  Bool.eq_false_iff.mpr fun hput => by
    obtain ⟨op, hop, hphase, hkind, -⟩ := executingPut_iff.mp hput
    exact h op hop hphase hkind

/-- A PUT executes under its own record alone (R41). -/
theorem executingPut_other {s : State} {k : Fin 8} {op : Operation} (h : s.slots[k] = some op) {n : Fin 512}
    (hn : n ≠ replayIndex op.requester op.tag.entry) : executingPut s n k = false :=
  Bool.eq_false_iff.mpr fun hput => by
    obtain ⟨op', hop, -, -, hindex⟩ := executingPut_iff.mp hput
    obtain rfl : op = op' := Option.some.inj (h.symm.trans hop)
    exact hn hindex.symm

/-- What record `n` says of the PUTs that execute under it (R42). -/
def RecordOk (s : State) (n : Fin 512) : Prop :=
  (s.replay[n].state = .pending ↔ ∃ k, executingPut s n k = true) ∧
  (∀ k k', executingPut s n k = true → executingPut s n k' = true → k = k') ∧
  (∀ k op, executingPut s n k = true → s.slots[k] = some op →
    s.replay[n].incarnation = op.incarnation ∧ s.replay[n].epoch = op.tag.epoch)

theorem replayOk_iff (s : State) : ReplayOk s ↔ ∀ n, RecordOk s n :=
  ⟨fun ⟨hstate, honly, hmatch⟩ n => ⟨hstate n, honly n, hmatch n⟩,
    fun h => ⟨fun n => (h n).1, fun n => (h n).2.1, fun n => (h n).2.2⟩⟩

/-- Under a record that is not PENDING no PUT executes. -/
theorem executingPut_notPending {s : State} (h : ReplayOk s) {n : Fin 512} (hn : s.replay[n].state ≠ .pending)
    (k : Fin 8) : executingPut s n k = false :=
  Bool.eq_false_iff.mpr fun hput => hn ((h.1 n).mpr ⟨k, hput⟩)

/-- A record keeps its law where it stays and every slot stays or holds no PUT of it before and after. -/
theorem recordOk_congr {s t : State} {n : Fin 512} (hrec : t.replay[n] = s.replay[n])
    (hslots : ∀ k : Fin 8, t.slots[k] = s.slots[k] ∨ executingPut s n k = false ∧ executingPut t n k = false)
    (h : RecordOk s n) : RecordOk t n := by
  have hput : ∀ k, executingPut t n k = executingPut s n k := fun k => by
    rcases hslots k with hk | ⟨hs, ht⟩
    · exact executingPut_congr hk n
    · rw [hs, ht]
  obtain ⟨hstate, honly, hmatch⟩ := h
  refine ⟨?_, ?_, fun k op hk hop => ?_⟩
  · simpa only [hrec, hput] using hstate
  · simpa only [hput] using honly
  · rcases hslots k with hsame | ⟨-, ht⟩
    · rw [hrec]
      exact hmatch k op (hput k ▸ hk) (hsame ▸ hop)
    · rw [ht] at hk; cases hk

/-- A record obeys its law where at most the PUT of slot `k` executes under it, and it is that PUT's. -/
theorem recordOk_of_slot {t : State} {n : Fin 512} (k : Fin 8)
    (hothers : ∀ k', k' ≠ k → executingPut t n k' = false)
    (hstate : t.replay[n].state = .pending ↔ executingPut t n k = true)
    (hmatch : ∀ op, executingPut t n k = true → t.slots[k] = some op →
      t.replay[n].incarnation = op.incarnation ∧ t.replay[n].epoch = op.tag.epoch) : RecordOk t n := by
  have honly : ∀ k', executingPut t n k' = true → k' = k := fun k' hk' => by
    by_contra hne
    rw [hothers k' hne] at hk'
    cases hk'
  refine ⟨hstate.trans ⟨fun h => ⟨k, h⟩, fun ⟨k', hk'⟩ => honly k' hk' ▸ hk'⟩,
    fun k₁ k₂ h₁ h₂ => (honly k₁ h₁).trans (honly k₂ h₂).symm, fun k' op hk' hop => ?_⟩
  obtain rfl := honly k' hk'
  exact hmatch op hk' hop

/-! ### What a replaced slot or record leaves -/

section
variable {s t : State} {k : Fin 8} {o : Option Operation}

theorem slots_set_self (h : t.slots = s.slots.set k o) : t.slots[k] = o := by rw [h, getElem_set_fin, if_pos rfl]

theorem slots_set_other (h : t.slots = s.slots.set k o) (k' : Fin 8) (hk : k' ≠ k) : t.slots[k'] = s.slots[k'] := by
  rw [h, getElem_set_fin, if_neg hk.symm]

/-- A slot that holds an executing PUT neither before nor after stands in no record. -/
theorem replayOk_of_slot (hrec : t.replay = s.replay) (hslots : t.slots = s.slots.set k o) (hs : NoPut s.slots[k])
    (ho : NoPut o) (h : ReplayOk s) : ReplayOk t := by
  rw [replayOk_iff] at h ⊢
  refine fun n => recordOk_congr (by rw [hrec]) (fun k' => ?_) (h n)
  by_cases hk : k' = k
  · subst hk
    exact .inr ⟨executingPut_of_noPut hs n, executingPut_of_noPut (slots_set_self hslots ▸ ho) n⟩
  · exact .inl (slots_set_other hslots k' hk)

/-- Slot `k` and record `n` are replaced: no other slot's PUT has that record, slot `k`'s PUT has no other, and the new
record is PENDING exactly for an executing PUT, whose incarnation and epoch it carries. -/
theorem replayOk_of_record {n : Fin 512} {x : ReplayRecord} (hrec : t.replay = s.replay.set n x)
    (hslots : t.slots = s.slots.set k o) (hfree : ∀ k', k' ≠ k → executingPut s n k' = false)
    (hs : ∀ m, m ≠ n → executingPut s m k = false) (ht : ∀ m, m ≠ n → executingPut t m k = false)
    (hstate : x.state = .pending ↔ executingPut t n k = true)
    (hmatch : ∀ op, executingPut t n k = true → o = some op → x.incarnation = op.incarnation ∧ x.epoch = op.tag.epoch)
    (h : ReplayOk s) : ReplayOk t := by
  have hothers := slots_set_other hslots
  rw [replayOk_iff] at h ⊢
  intro m
  by_cases hm : m = n
  · subst hm
    have hx : t.replay[m] = x := by rw [hrec, getElem_set_fin, if_pos rfl]
    refine recordOk_of_slot k (fun k' hk => ?_) (by rw [hx]; exact hstate)
      (by rw [hx, slots_set_self hslots]; exact hmatch)
    rw [executingPut_congr (hothers k' hk)]
    exact hfree k' hk
  · refine recordOk_congr (by rw [hrec, getElem_set_fin, if_neg (Ne.symm hm)]) (fun k' => ?_) (h m)
    by_cases hk : k' = k
    · exact .inr (hk ▸ ⟨hs m hm, ht m hm⟩)
    · exact .inl (hothers k' hk)

/-- Slot `k` holds no executing PUT any more, and record `n`, which is no other slot's PUT's and the only one that slot
`k`'s PUT may have had, is not PENDING any more. -/
theorem replayOk_of_settled {n : Fin 512} {x : ReplayRecord} (hrec : t.replay = s.replay.set n x)
    (hslots : t.slots = s.slots.set k o) (hfree : ∀ k', k' ≠ k → executingPut s n k' = false)
    (hs : ∀ m, m ≠ n → executingPut s m k = false) (ho : NoPut o) (hx : x.state ≠ .pending) (h : ReplayOk s) :
    ReplayOk t := by
  have ht := executingPut_of_noPut (slots_set_self hslots ▸ ho)
  refine replayOk_of_record hrec hslots hfree hs (fun m _ => ht m) (iff_of_false hx ?_) (fun op hput => ?_) h
  · rw [ht n]; exact Bool.false_ne_true
  · rw [ht n] at hput; cases hput

end

/-- `t` has the operations and the replay records of `s`. -/
structure ReplayFrame (s t : State) : Prop where
  slots : t.slots = s.slots
  replay : t.replay = s.replay

namespace ReplayFrame

theorem refl (s : State) : ReplayFrame s s := ⟨rfl, rfl⟩

theorem trans {s t u : State} (h : ReplayFrame s t) (g : ReplayFrame t u) : ReplayFrame s u :=
  ⟨g.slots.trans h.slots, g.replay.trans h.replay⟩

theorem of_requester {s t : State} (h : RequesterFrame s t) : ReplayFrame s t := ⟨h.slots, h.replay⟩

theorem replayOk {s t : State} (h : ReplayFrame s t) (hs : ReplayOk s) : ReplayOk t := by
  rw [replayOk_iff] at hs ⊢
  exact fun n => recordOk_congr (by rw [h.replay]) (fun k => .inl (by rw [h.slots])) (hs n)

end ReplayFrame

/-! ### Taking a request (R32 to R37) -/

/-- A PUT or SIGNAL that is served afresh found no PENDING record (R32). -/
theorem replayLookup_fresh_notPending {s : State} {r : Request} (hkind : r.kind ≠ .get)
    (h : replayLookup s r = .fresh) : (requestRecord s r).state ≠ .pending := by
  intro hp
  cases hk : r.kind with
  | get => exact hkind hk
  | put => simp only [replayLookup, hk, hp] at h; split at h <;> cases h
  | signal => simp only [replayLookup, hk, hp] at h; split at h <;> cases h

theorem answerAtOnce_replayOk {s : State} {k : Fin 8} (hk : s.slots[k] = none) (r : Request) (o : DoneOutcome)
    (h : ReplayOk s) : ReplayOk (s.answerAtOnce k r o) :=
  replayOk_of_slot (s := s) rfl rfl (hk ▸ noPut_none) (noPut_some (.inl rfl)) h

/-- A SIGNAL's record, which was not PENDING, is SETTLED with no PUT under it (R37). -/
theorem serveSignal_replayOk {s : State} {k : Fin 8} (hk : s.slots[k] = none) {r : Request}
    (hrec : (requestRecord s r).state ≠ .pending) (h : ReplayOk s) : ReplayOk (s.serveSignal k r) := by
  unfold State.serveSignal
  split
  · exact answerAtOnce_replayOk hk r _ h
  · split
    · exact answerAtOnce_replayOk hk r _ h
    · exact replayOk_of_settled (n := replayIndex r.sender r.tag.entry) rfl rfl
        (fun k' _ => executingPut_notPending h hrec k') (fun m _ => executingPut_of_noPut (hk ▸ noPut_none) m)
        (noPut_some (.inl rfl)) ReplayState.noConfusion h

theorem executeRequest_replay (s : State) (k : Fin 8) (r : Request) :
    (s.executeRequest k r).replay = (s.recordAdmission r).replay := by rw [executeRequest_eq]

/-- The operation of an admitted request has the request's kind, requester, incarnation and tag (R23, R35, R36). -/
theorem admittedOperation_request (r : Request) (w : WindowEntry) (b : Option (Fin 24)) :
    (admittedOperation r w b).phase = .executing ∧ (admittedOperation r w b).kind = r.kind ∧
    (admittedOperation r w b).requester = r.sender ∧ (admittedOperation r w b).incarnation = r.incarnation ∧
    (admittedOperation r w b).tag = r.tag := by
  cases hk : w.kind with
  | memory => rw [admittedOperation_memory r b hk]; exact ⟨rfl, rfl, rfl, rfl, rfl⟩
  | mailbox => rw [admittedOperation_mailbox r b hk]; exact ⟨rfl, rfl, rfl, rfl, rfl⟩

/-- An admitted PUT makes its record PENDING; an admitted GET has none (R35, R36). -/
theorem executeRequest_replayOk {s : State} {k : Fin 8} (hk : s.slots[k] = none) {r : Request}
    (hrec : r.kind = .put → (requestRecord s r).state ≠ .pending) (h : ReplayOk s) :
    ReplayOk (s.executeRequest k r) := by
  have hslots := executeRequest_slots s k r
  have hreplay := executeRequest_replay s k r
  obtain ⟨hphase, hkind, hreq, hinc, htag⟩ :=
    admittedOperation_request r s.windows[r.window] (freeBuffer s)
  generalize admittedOperation r s.windows[r.window] (freeBuffer s) = op at hphase hkind hreq hinc htag hslots
  generalize s.executeRequest k r = t at hslots hreplay ⊢
  have hself := slots_set_self hslots
  unfold State.recordAdmission at hreplay
  by_cases hp : r.kind = .put
  · rw [if_pos hp] at hreplay
    have hput : executingPut t (replayIndex r.sender r.tag.entry) k = true :=
      executingPut_iff.mpr ⟨op, hself, hphase, hkind.trans hp, by rw [hreq, htag]⟩
    refine replayOk_of_record hreplay hslots (fun k' _ => executingPut_notPending h (hrec hp) k')
      (fun m _ => executingPut_of_noPut (hk ▸ noPut_none) m)
      (fun m hm => executingPut_other hself (by rw [hreq, htag]; exact hm)) (iff_of_true rfl hput) ?_ h
    rintro _ - ⟨⟩
    rw [hinc, htag]
    exact ⟨rfl, rfl⟩
  · rw [if_neg hp] at hreplay
    exact replayOk_of_slot hreplay hslots (hk ▸ noPut_none) (noPut_some (.inr (hkind ▸ hp))) h

theorem touchWindow_replayFrame (s : State) (i : Fin 32) (sender : Station) (offset : Nat) :
    ReplayFrame s (s.touchWindow i sender offset) := by
  unfold State.touchWindow
  split <;> exact ⟨rfl, rfl⟩

theorem serveWindow_replayOk {s : State} {k : Fin 8} (hk : s.slots[k] = none) {r : Request}
    (hrec : r.kind = .put → (requestRecord s r).state ≠ .pending) (h : ReplayOk s) : ReplayOk (s.serveWindow k r) := by
  unfold State.serveWindow
  split
  · exact executeRequest_replayOk hk hrec h
  · have hf := touchWindow_replayFrame s r.window r.sender r.offset
    exact answerAtOnce_replayOk (by rw [hf.slots]; exact hk) r _ (hf.replayOk h)
  · exact answerAtOnce_replayOk hk r _ h

theorem placePayload_replayFrame (s : State) (r : Request) : ReplayFrame s (s.placePayload r) := by
  unfold State.placePayload
  split
  · cases freeBuffer s <;> exact ⟨rfl, rfl⟩
  · exact .refl s

theorem takeRequest_replayOk {s : State} (r : Request) (h : ReplayOk s) : ReplayOk (s.takeRequest r).1 := by
  have hf := placePayload_replayFrame s r
  unfold State.takeRequest
  split
  case h_1 => exact h
  case h_2 => exact h
  case h_3 =>
    split
    · exact h
    · rename_i k hfree
      exact answerAtOnce_replayOk (by rw [hf.slots]; exact freeSlot_none hfree) r _ (hf.replayOk h)
  case h_4 hlook =>
    split
    · exact h
    · rename_i k hfree
      have hk : (s.placePayload r).slots[k] = none := by rw [hf.slots]; exact freeSlot_none hfree
      have hrec : r.kind ≠ .get → (requestRecord (s.placePayload r) r).state ≠ .pending := fun hget => by
        rw [requestRecord, hf.replay]
        exact replayLookup_fresh_notPending hget hlook
      show ReplayOk ((s.placePayload r).serveFresh k r)
      unfold State.serveFresh
      split
      · rename_i hsignal
        exact serveSignal_replayOk hk (hrec (by rw [hsignal]; exact RequestKind.noConfusion)) (hf.replayOk h)
      · exact serveWindow_replayOk hk (fun hput => hrec (by rw [hput]; exact RequestKind.noConfusion)) (hf.replayOk h)

theorem takeAnswer_replayFrame (s : State) (a : Answer) : ReplayFrame s (s.takeAnswer a) := by
  unfold State.takeAnswer
  split
  · cases a with
    | done t o =>
      exact (show ReplayFrame s (s.unqueue (tagEntry t)) from ⟨rfl, rfl⟩).trans (.of_requester (.settleDone _ _ _))
    | data t p =>
      simp only [State.landData]
      generalize landingJob _ _ = j
      generalize { (s.unqueue (tagEntry t)).entries[tagEntry t] with state := EntryState.landing } = e
      obtain ⟨e', he⟩ := queueRequester_eq
        (((s.unqueue (tagEntry t)).fillBuffer (s.unqueue (tagEntry t)).entries[tagEntry t].buffer p).setEntry
          (tagEntry t) e) j
      rw [he]
      cases (s.unqueue (tagEntry t)).entries[tagEntry t].buffer <;> exact ⟨rfl, rfl⟩
  · exact .refl s

theorem takeFrame_replayOk {s : State} (f : Frame) (h : ReplayOk s) : ReplayOk (s.takeFrame f).1 := by
  unfold State.takeFrame
  split
  · split
    · exact takeRequest_replayOk _ h
    · exact (takeAnswer_replayFrame s _).replayOk h
    · exact h
  · exact h

theorem execFrameCrcReceived_replayOk {s t : State} {conds : List LineCond} (h : execFrameCrcReceived conds s = .next t)
    (hs : ReplayOk s) : ReplayOk t := by
  unfold execFrameCrcReceived at h
  split at h
  · split at h <;> cases h
    · exact hs
    · exact takeFrame_replayOk _ hs
  · cases h; exact hs

/-! ### The send result of a response (R46) -/

theorem endOperation_slots (s : State) (k : Fin 8) (op : Operation) :
    (s.endOperation k op).slots = s.slots.set k none ∧ (s.endOperation k op).replay = s.replay := by
  unfold State.endOperation
  cases op.buffer <;> exact ⟨rfl, rfl⟩

theorem endOperation_replayOk {s : State} {k : Fin 8} (op : Operation) (hk : NoPut s.slots[k]) (h : ReplayOk s) :
    ReplayOk (s.endOperation k op) := by
  obtain ⟨hslots, hreplay⟩ := endOperation_slots s k op
  exact replayOk_of_slot hreplay hslots hk noPut_none h

/-- A response that is sent belongs to an ANSWERING operation, freed or sent again. -/
theorem responseSent_replayOk {s : State} {k : Fin 8} (taken : Bool) (hserve : ServeOk s) (hk : k ∈ s.sendOrder)
    (h : ReplayOk s) : ReplayOk (s.responseSent k taken) := by
  obtain ⟨op, hop, hphase, -⟩ := slotOk_inOrder (hserve.2.1 k) hk
  have hno : NoPut s.slots[k] := hop ▸ noPut_some (.inl hphase)
  simp only [State.responseSent, hop]
  split
  · exact endOperation_replayOk op hno h
  · split
    · exact replayOk_of_slot (s := s) rfl rfl hno (noPut_some (.inl hphase)) h
    · exact endOperation_replayOk op hno h

theorem execSentFrameEnd_replayOk {s t : State} {slot : LineCond} (h : execSentFrameEnd slot s = .next t)
    (hserve : ServeOk s) (hs : ReplayOk s) : ReplayOk t := by
  unfold execSentFrameEnd at h
  split at h
  case h_2 => cases h; exact hs
  case h_1 f hst hh =>
    cases h
    unfold State.giveResult
    split
    case h_2 => exact (ReplayFrame.of_requester (.entrySent _ _ _)).replayOk hs
    case h_1 k ho =>
      have hk : k ∈ s.sendOrder := List.mem_of_mem_head? (hserve.2.2.2 f k hh ho (.inr hst))
      obtain ⟨hn, hslots, hwindows, -⟩ := hserve
      exact responseSent_replayOk _ ⟨hn, hslots, hwindows, fun f' k' hf => by cases hf⟩ hk hs

/-! ### The end of an operation's job (R38, R39) -/

/-- The operation at its execution end: ANSWERING, with a buffer for a DATA alone (R38, R39). -/
def Operation.ended (op : Operation) (faulted : Bool) : Operation :=
  { op with
    phase := .answering
    buffer := if executionResponse op faulted = .data then op.buffer else none
    response := some (executionResponse op faulted) }

/-- The buffer that an execution end returns: a DATA keeps the operation's (R38, R39). -/
def Operation.returned (op : Operation) (faulted : Bool) : Option (Fin 24) :=
  if executionResponse op faulted = .data then none else op.buffer

/-- The notice of a faulted execution (R39). -/
def Operation.faultNotices (op : Operation) (i : Fin 32) (faulted : Bool) : List Notice :=
  if faulted then [.localFault i (op.localAddress.getD 0) op.mailboxSlot] else []

theorem answerExecuted_eq (s : State) (k : Fin 8) (op : Operation) (faulted : Bool) :
    s.answerExecuted k op faulted =
      { s.returnBuffer (op.returned faulted) with
        slots := s.slots.set k (some (op.ended faulted))
        sendOrder := s.sendOrder ++ [k] } := by
  unfold State.answerExecuted Operation.ended Operation.returned
  split
  · rename_i hdata; rw [hdata]; rfl
  · cases op.buffer <;> rfl

theorem settleRecord_eq (s : State) (op : Operation) (faulted : Bool) : s.settleRecord op faulted =
    { s with
      replay := if op.kind = .put then
          s.replay.set (replayIndex op.requester op.tag.entry)
            ⟨.settled, op.incarnation, op.tag.epoch, some (if faulted then .fault else .ok)⟩
        else s.replay } := by
  unfold State.settleRecord
  split <;> rfl

/-- The state at the end of the job of `op` in slot `k` against window `i`, field by field: the window drains, the
record settles where it is a PUT, the answer joins the send order, and the buffer returns (R38, R39, R53, R54). -/
def State.executionEnded (s : State) (k : Fin 8) (op : Operation) (i : Fin 32) (faulted : Bool) : State :=
  State.returnBuffer
    { s with
      windows := s.windows.set i (executionEnd i s.windows[i] op.mailboxSlot (op.faultNotices i faulted)).1
      notices := (executionEnd i s.windows[i] op.mailboxSlot (op.faultNotices i faulted)).2.foldl
        NoticeQueue.post s.notices
      replay := if op.kind = .put then
          s.replay.set (replayIndex op.requester op.tag.entry)
            ⟨.settled, op.incarnation, op.tag.epoch, some (if faulted then .fault else .ok)⟩
        else s.replay
      slots := s.slots.set k (some (op.ended faulted))
      sendOrder := s.sendOrder ++ [k] }
    (op.returned faulted)

theorem operationJobEnd_eq {s : State} {k : Fin 8} {op : Operation} {i : Fin 32} (hop : s.slots[k] = some op)
    (hi : op.window = some i) (faulted : Bool) : s.operationJobEnd k faulted = s.executionEnded k op i faulted := by
  simp only [State.operationJobEnd, hop]
  rw [endExecution_eq s op i faulted hi, settleRecord_eq, answerExecuted_eq]
  unfold State.executionEnded
  cases op.returned faulted <;> rfl

/-- An executed PUT leaves its record SETTLED, and no other PUT had it; a GET has no record (R38, R39, R42). -/
theorem operationJobEnd_replayOk {s : State} {k : Fin 8} {op : Operation} {i : Fin 32} (hop : s.slots[k] = some op)
    (hphase : op.phase = .executing) (hi : op.window = some i) (faulted : Bool) (h : ReplayOk s) :
    ReplayOk (s.operationJobEnd k faulted) := by
  have hframe : ∀ (u : State) (b : Option (Fin 24)), ReplayFrame u (u.returnBuffer b) := fun u b => by
    cases b <;> exact ⟨rfl, rfl⟩
  rw [operationJobEnd_eq hop hi, State.executionEnded]
  refine (hframe _ _).replayOk ?_
  by_cases hput : op.kind = .put
  · have hown : executingPut s (replayIndex op.requester op.tag.entry) k = true :=
      executingPut_iff.mpr ⟨op, hop, hphase, hput, rfl⟩
    refine replayOk_of_settled (s := s) (if_pos hput) rfl (fun k' hne => ?_) (fun m hm => executingPut_other hop hm)
      (noPut_some (.inl rfl)) ReplayState.noConfusion h
    exact Bool.eq_false_iff.mpr fun hk' => hne (h.2.1 _ k' k hk' hown)
  · exact replayOk_of_slot (s := s) (if_neg hput) rfl (hop ▸ noPut_some (.inr hput)) (noPut_some (.inl rfl)) h

/-! ### The end of a job and the engine's events -/

theorem selectJob_replayFrame (s : State) : ReplayFrame s s.selectJob := by
  obtain ⟨e, h⟩ := selectJob_eq s
  rw [h]
  exact ⟨rfl, rfl⟩

theorem decideStart_replayFrame (s : State) (faulted : Bool) : ReplayFrame s (s.decideStart faulted) := by
  unfold State.decideStart
  split
  · exact ⟨rfl, rfl⟩
  · split <;> exact ⟨rfl, rfl⟩

theorem endJob_replayOk {s : State} {j : Job} (hj : s.engine.job = some j) (faulted : Bool) (hserve : ServeOk s)
    (h : ReplayOk s) : ReplayOk (s.endJob j.owner faulted) := by
  have hrelease : ReplayFrame s s.releaseEngine := ⟨rfl, rfl⟩
  refine (selectJob_replayFrame _).replayOk ?_
  cases ho : j.owner with
  | operation k =>
    obtain ⟨op, hop, hphase, -⟩ := slotOk_started (hserve.2.1 k) hj ho
    obtain ⟨-, -, -, -, -, i, hi, -⟩ := slotOk_executing (hserve.2.1 k) hop hphase
    exact operationJobEnd_replayOk (s := s.releaseEngine) hop hphase hi faulted (hrelease.replayOk h)
  | entry i => exact (hrelease.trans (.of_requester (.entryJobEnd _ _ _))).replayOk h
  | loader => exact (hrelease.trans (decideStart_replayFrame _ _)).replayOk h

theorem execLberr_replayOk {s t : State} {inCycle : Bool} (h : execLberr s inCycle = .next t) (hserve : ServeOk s)
    (hs : ReplayOk s) : ReplayOk t := by
  unfold execLberr at h
  split at h
  · cases h; exact hs
  · rename_i j hj
    split at h <;> cases h
    · exact endJob_replayOk hj true hserve hs
    · exact hs

theorem execGrantWaitExpiry_replayOk {s t : State} (h : execGrantWaitExpiry s = .next t) (hserve : ServeOk s)
    (hs : ReplayOk s) : ReplayOk t := by
  unfold execGrantWaitExpiry at h
  split at h
  · cases h; exact hs
  · rename_i j hj
    split at h <;> cases h
    · exact endJob_replayOk hj true hserve hs
    · exact hs

theorem moveCycle_replayFrame (s : State) (j : Job) : ReplayFrame s (s.moveCycle j) := by
  obtain ⟨m, bs, l, h⟩ := moveCycle_eq s j
  rw [h]
  exact ⟨rfl, rfl⟩

theorem completeCycle_replayOk {s : State} {j : Job} (hj : s.engine.job = some j) (hline : LineCore s)
    (hserve : ServeOk s) (hs : ReplayOk s) : ReplayOk (s.completeCycle j) := by
  have hf := moveCycle_replayFrame s j
  obtain ⟨hq, he⟩ := moveCycle_quiet s j
  unfold State.completeCycle
  split
  · exact endJob_replayOk (by rw [he]; exact hj) false (hq.kept.serve hline hserve) (hf.replayOk hs)
  · refine (hf.trans ?_).replayOk hs
    unfold State.continueJob
    split <;> exact ⟨rfl, rfl⟩

theorem execBusCycleComplete_replayOk {s t : State} {stores : List Host.Cell}
    (h : execBusCycleComplete stores s = .next t) (hline : LineCore s) (hserve : ServeOk s) (hs : ReplayOk s) :
    ReplayOk t := by
  unfold execBusCycleComplete at h
  split at h
  · cases h; exact hs
  · rename_i j hj
    split at h
    · split at h <;> cases h
      exact completeCycle_replayOk (s := { s with mem := Memory.writeCells s.mem stores }) hj hline hserve hs
    · cases h; exact hs

/-! ### The commands that leave both tables alone -/

theorem onWindow_replayFrame {taken : WindowState → Bool} {act : Fin 32 → WindowEntry → State → State × Result}
    (h : ∀ i w u, ReplayFrame u (act i w u).1) (s : State) : ReplayFrame s (onWindow taken act s).1 := by
  unfold onWindow
  split
  · split
    · exact h _ _ _
    · exact .refl s
  · exact .refl s

theorem onChannel_replayFrame {taken : ChannelState → Bool} {act : Fin 8 → Channel → State → State × Result}
    (h : ∀ c r u, ReplayFrame u (act c r u).1) (s : State) : ReplayFrame s (onChannel taken act s).1 := by
  unfold onChannel
  split
  · split
    · exact h _ _ _
    · exact .refl s
  · exact .refl s

theorem takeCommand_replayFrame {code : Word} {owner : State → State × Result} (h : ∀ u, ReplayFrame u (owner u).1)
    (s : State) : ReplayFrame s (takeCommand code owner s) := by
  unfold takeCommand
  split
  · exact .refl s
  · split
    · exact ⟨(h { s with cmd := code }).slots, (h { s with cmd := code }).replay⟩
    · exact ⟨rfl, rfl⟩

/-- A choice of two answers leaves the tables alone where both do. -/
theorem ite_replayFrame {p : Prop} [Decidable p] {u : State} {a b : State × Result} (ha : ReplayFrame u a.1)
    (hb : ReplayFrame u b.1) : ReplayFrame u (if p then a else b).1 := by
  split
  · exact ha
  · exact hb

theorem setWindow_replayFrame (s : State) (i : Fin 32) (w : WindowEntry) : ReplayFrame s (s.setWindow i w) := ⟨rfl, rfl⟩

theorem setChannel_replayFrame (s : State) (c : Fin 8) (r : Channel) : ReplayFrame s (s.setChannel c r) :=
  .of_requester (.setChannel s c r)

theorem winOpen_replayFrame (s : State) : ReplayFrame s (winOpen s).1 :=
  onWindow_replayFrame (fun _ _ u => ite_replayFrame (setWindow_replayFrame u _ _) (.refl u)) s

theorem winPark_replayFrame (s : State) : ReplayFrame s (winPark s).1 :=
  onWindow_replayFrame (fun _ _ u => ite_replayFrame (setWindow_replayFrame u _ _) (setWindow_replayFrame u _ _)) s

theorem winUnpark_replayFrame (s : State) : ReplayFrame s (winUnpark s).1 :=
  onWindow_replayFrame (fun _ _ u => setWindow_replayFrame u _ _) s

theorem winClose_replayFrame (s : State) : ReplayFrame s (winClose s).1 :=
  onWindow_replayFrame (fun _ _ u => ite_replayFrame (setWindow_replayFrame u _ _) (setWindow_replayFrame u _ _)) s

theorem winGrants_replayFrame (s : State) : ReplayFrame s (winGrants s).1 :=
  onWindow_replayFrame (fun _ _ u => setWindow_replayFrame u _ _) s

theorem winQuery_replayFrame (s : State) : ReplayFrame s (winQuery s).1 :=
  onWindow_replayFrame (fun _ _ _ => ⟨rfl, rfl⟩) s

theorem mboxConsume_replayFrame (s : State) : ReplayFrame s (mboxConsume s).1 :=
  onWindow_replayFrame (fun _ _ u => ite_replayFrame (setWindow_replayFrame u _ _) (.refl u)) s

theorem chLoad_replayFrame (s : State) : ReplayFrame s (chLoad s).1 :=
  onChannel_replayFrame (fun _ _ u => ite_replayFrame (setChannel_replayFrame u _ _) (.refl u)) s

theorem chStart_replayFrame (s : State) : ReplayFrame s (chStart s).1 :=
  onChannel_replayFrame (fun _ _ u => setChannel_replayFrame u _ _) s

theorem chAbort_replayFrame (s : State) : ReplayFrame s (chAbort s).1 :=
  onChannel_replayFrame (fun _ _ u => .of_requester (((RequesterFrame.releaseEntries u _).trans
    (.setChannel _ _ _)).trans (.post _ _))) s

theorem chClear_replayFrame (s : State) : ReplayFrame s (chClear s).1 :=
  onChannel_replayFrame (fun _ _ u => setChannel_replayFrame u _ _) s

theorem chQuery_replayFrame (s : State) : ReplayFrame s (chQuery s).1 :=
  onChannel_replayFrame (fun _ _ _ => ⟨rfl, rfl⟩) s

theorem lineRestart_replayFrame (s : State) : ReplayFrame s (lineRestart s).1 :=
  ite_replayFrame ⟨rfl, rfl⟩ (.refl s)

/-- The writes of the port that no owner takes change the notices, the argument words, CMD and RESULT alone. -/
theorem takeUnknown_replayFrame (code : Word) (s : State) : ReplayFrame s (takeUnknown code s) := by
  unfold takeUnknown; split <;> exact ⟨rfl, rfl⟩

theorem portPop_replayFrame (s : State) : ReplayFrame s (portPop s) := by
  unfold portPop; split <;> exact ⟨rfl, rfl⟩

theorem portEnable_replayFrame (value : Word) (enables : BitVec 4) (s : State) :
    ReplayFrame s (portEnable value enables s) := by
  unfold portEnable
  split
  · exact .refl s
  · split <;> exact ⟨rfl, rfl⟩

theorem portArgument_replayFrame (position : Nat) (value : Word) (enables : BitVec 4) (s : State) :
    ReplayFrame s (portArgument position value enables s) := by
  unfold portArgument
  split
  · exact .refl s
  · split <;> exact ⟨rfl, rfl⟩

/-! The line's and the requester side's events. -/

theorem setLine_replayFrame (s : State) (l : Line) : ReplayFrame s (s.setLine l) := ⟨rfl, rfl⟩

theorem execStartOpportunity_replayFrame {s t : State} (h : execStartOpportunity s = .next t) : ReplayFrame s t := by
  unfold execStartOpportunity at h
  split at h
  · split at h <;> cases h <;> exact ⟨rfl, rfl⟩
  · cases h; exact .refl s

theorem execRoundLost_replayFrame {s t : State} (h : execRoundLost s = .next t) : ReplayFrame s t := by
  unfold execRoundLost at h
  split at h
  · split at h <;> cases h
    · exact setLine_replayFrame s _
    · exact (setLine_replayFrame s _).trans (.of_requester (.entryRoundLost _ _))
  · cases h; exact .refl s

theorem execRoundWon_replayFrame {s t : State} (h : execRoundWon s = .next t) : ReplayFrame s t := by
  unfold execRoundWon at h
  split at h
  · split at h <;> cases h
    · exact setLine_replayFrame s _
    · exact (setLine_replayFrame s _).trans (.of_requester (.sendEntry _ _))
  · cases h; exact .refl s

theorem execClash_replayFrame {s t : State} (h : execClash s = .next t) : ReplayFrame s t := by
  have hclash : ∀ o, ReplayFrame s ((s.setLine s.line.afterClash).giveClash o) := fun o => by
    refine (setLine_replayFrame s s.line.afterClash).trans ?_
    unfold State.giveClash
    split
    · exact .refl _
    · exact .of_requester (.entryClashed _ _)
  unfold execClash at h
  split at h
  · split at h <;> cases h
    · exact (hclash _).trans ⟨rfl, rfl⟩
    · exact hclash _
  · cases h; exact .refl s

theorem endFrame_replayFrame (s : State) : ReplayFrame s s.endFrame := by
  unfold State.endFrame
  split
  case h_2 => split <;> [skip; split] <;> exact ⟨rfl, rfl⟩
  case h_3 => split <;> exact ⟨rfl, rfl⟩
  all_goals exact ⟨rfl, rfl⟩

theorem execFrameEnd_replayFrame {s t : State} {conds : List LineCond} (h : execFrameEnd s conds = .next t) :
    ReplayFrame s t := by
  unfold execFrameEnd at h
  split at h <;> cases h
  · exact endFrame_replayFrame s
  · exact .refl s

theorem execJoiningTimerExpiry_replayFrame {s t : State} (h : execJoiningTimerExpiry s = .next t) :
    ReplayFrame s t := by
  unfold execJoiningTimerExpiry at h
  split at h <;> cases h <;> exact ⟨rfl, rfl⟩

theorem execResponseTimerExpiry_replayFrame {s t : State} {i : Fin 16} (h : execResponseTimerExpiry i s = .next t) :
    ReplayFrame s t := by
  unfold execResponseTimerExpiry at h
  split at h <;> cases h
  · exact .of_requester (.retryEntry _ _)
  · exact .refl s

theorem execHoldTimerExpiry_replayFrame {s t : State} {i : Fin 16} (h : execHoldTimerExpiry i s = .next t) :
    ReplayFrame s t := by
  unfold execHoldTimerExpiry at h
  split at h <;> cases h
  · exact .of_requester (.queueTail _ _ _)
  · exact .refl s

theorem launch_replayFrame (s : State) (i : Fin 16) (e : Entry) : ReplayFrame s (s.launch i e) := by
  unfold State.launch
  split
  · obtain ⟨e', h⟩ := queueRequester_eq s (stagingJob i e)
    rw [h]
    exact ⟨rfl, rfl⟩
  all_goals exact ⟨rfl, rfl⟩

theorem execFormation_replayFrame {s t : State} (h : execFormation s = .next t) : ReplayFrame s t := by
  unfold execFormation at h
  split at h
  · split at h <;> cases h
    · refine .trans ?_ (launch_replayFrame _ _ _)
      cases freeBuffer s <;> exact ⟨rfl, rfl⟩
    · exact .refl s
  all_goals cases h; exact .refl s

theorem execSignalFormation_replayFrame {s t : State} (h : execSignalFormation s = .next t) : ReplayFrame s t := by
  unfold execSignalFormation at h
  split at h
  · split at h <;> cases h
    · refine .trans ?_ (launch_replayFrame _ _ _)
      exact ⟨rfl, rfl⟩
    · exact .refl s
  all_goals cases h; exact .refl s

theorem execPaceAsserted_replayFrame {s t : State} {n : Fin 4} (h : execPaceAsserted n s = .next t) :
    ReplayFrame s t := by
  unfold execPaceAsserted at h
  split at h <;> cases h <;> exact ⟨rfl, rfl⟩

theorem execLbgntAsserted_replayFrame {s t : State} (h : execLbgntAsserted s = .next t) : ReplayFrame s t := by
  unfold execLbgntAsserted at h
  split at h <;> cases h <;> exact ⟨rfl, rfl⟩

theorem execLbgntDeasserted_replayFrame {s t : State} (h : execLbgntDeasserted s = .next t) : ReplayFrame s t := by
  unfold execLbgntDeasserted at h
  split at h <;> cases h <;> exact ⟨rfl, rfl⟩

/-! ### The resets and every command -/

/-- With every slot free and every record EMPTY no PUT executes and no record is PENDING (R24, R41, R183). -/
theorem replayOk_of_reset {s : State} (h : AtFullReset s) : ReplayOk s := by
  obtain ⟨-, hslots, -, hreplay, -⟩ := h
  have hput : ∀ n k, executingPut s n k = false := fun n k => executingPut_of_noPut (hslots k ▸ noPut_none) n
  refine (replayOk_iff s).mpr fun n => recordOk_of_slot 0 (fun k _ => hput n k) ?_ fun op hp => ?_
  · rw [hreplay, hput]; exact iff_of_false ReplayState.noConfusion Bool.false_ne_true
  · rw [hput] at hp; cases hp

theorem beginStart_replayFrame (s : State) (straps : Station) : ReplayFrame s (s.beginStart straps) := by
  rw [beginStart_eq]
  exact ⟨rfl, rfl⟩

theorem execStationReset_replayOk {s t : State} {straps : Station} (h : execStationReset straps s = .next t)
    (hs : ReplayOk s) : ReplayOk t := by
  unfold execStationReset at h
  split at h <;> cases h
  · exact hs
  · exact (beginStart_replayFrame _ _).replayOk (replayOk_of_reset (fullReset_atFullReset s))

/-- A command written to CMD that an owner takes. -/
theorem next_takeCommand_replayOk {code : Word} {owner : State → State × Result}
    (h : ∀ u, ReplayFrame u (owner u).1) {s : State} (hs : ReplayOk s) :
    ∀ t, (.next (takeCommand code owner s) : Host.Outcome State Fault Refusal) = .next t → ReplayOk t := by
  rintro t ⟨⟩
  exact (takeCommand_replayFrame h s).replayOk hs

theorem cmdWrite_replayOk {s t : State} {code : Word} (h : cmdWrite code s = .next t) (hs : ReplayOk s) :
    ReplayOk t := by
  suffices hall : ∀ u, cmdWrite code s = .next u → ReplayOk u from hall t h
  unfold cmdWrite
  refine next_ite ?winOpen <| next_ite ?winPark <| next_ite ?winUnpark <| next_ite ?winClose <| next_ite ?winGrants <|
    next_ite ?winQuery <| next_ite ?mboxConsume <| next_ite ?chLoad <| next_ite ?chStart <| next_ite ?chAbort <|
    next_ite ?chClear <| next_ite ?chQuery <| next_ite ?lineRestart <| next_ite ?stationReset ?unknown
  case winOpen => exact next_takeCommand_replayOk winOpen_replayFrame hs
  case winPark => exact next_takeCommand_replayOk winPark_replayFrame hs
  case winUnpark => exact next_takeCommand_replayOk winUnpark_replayFrame hs
  case winClose => exact next_takeCommand_replayOk winClose_replayFrame hs
  case winGrants => exact next_takeCommand_replayOk winGrants_replayFrame hs
  case winQuery => exact next_takeCommand_replayOk winQuery_replayFrame hs
  case mboxConsume => exact next_takeCommand_replayOk mboxConsume_replayFrame hs
  case chLoad => exact next_takeCommand_replayOk chLoad_replayFrame hs
  case chStart => exact next_takeCommand_replayOk chStart_replayFrame hs
  case chAbort => exact next_takeCommand_replayOk chAbort_replayFrame hs
  case chClear => exact next_takeCommand_replayOk chClear_replayFrame hs
  case chQuery => exact next_takeCommand_replayOk chQuery_replayFrame hs
  case lineRestart => exact next_takeCommand_replayOk lineRestart_replayFrame hs
  case stationReset => exact fun t h => execStationReset_replayOk h hs
  case unknown => rintro t ⟨⟩; exact (takeUnknown_replayFrame _ s).replayOk hs

theorem execPortWordWrite_replayOk {s t : State} {address : BitVec 24} {value : Word} {enables : BitVec 4}
    (h : execPortWordWrite address value enables s = .next t) (hs : ReplayOk s) : ReplayOk t := by
  unfold execPortWordWrite at h
  split_ifs at h
  · exact cmdWrite_replayOk h hs
  · cases h; exact (portPop_replayFrame s).replayOk hs
  · cases h; exact (portEnable_replayFrame _ _ s).replayOk hs
  · cases h; exact (portArgument_replayFrame _ _ _ s).replayOk hs

/-- Every command keeps the Replay Table with its PUTs, in a state whose slots are in step. -/
theorem exec_replayOk {c : Instr} {s t : State} (h : exec c s = .next t) (hline : LineCore s) (hserve : ServeOk s)
    (hs : ReplayOk s) : ReplayOk t := by
  cases c with
  | winOpen => exact next_takeCommand_replayOk winOpen_replayFrame hs t h
  | winPark => exact next_takeCommand_replayOk winPark_replayFrame hs t h
  | winUnpark => exact next_takeCommand_replayOk winUnpark_replayFrame hs t h
  | winClose => exact next_takeCommand_replayOk winClose_replayFrame hs t h
  | winGrants => exact next_takeCommand_replayOk winGrants_replayFrame hs t h
  | winQuery => exact next_takeCommand_replayOk winQuery_replayFrame hs t h
  | mboxConsume => exact next_takeCommand_replayOk mboxConsume_replayFrame hs t h
  | chLoad => exact next_takeCommand_replayOk chLoad_replayFrame hs t h
  | chStart => exact next_takeCommand_replayOk chStart_replayFrame hs t h
  | chAbort => exact next_takeCommand_replayOk chAbort_replayFrame hs t h
  | chClear => exact next_takeCommand_replayOk chClear_replayFrame hs t h
  | chQuery => exact next_takeCommand_replayOk chQuery_replayFrame hs t h
  | lineRestart => exact next_takeCommand_replayOk lineRestart_replayFrame hs t h
  | stationReset straps => exact execStationReset_replayOk h hs
  | unknownCommand value enables => exact cmdWrite_replayOk h hs
  | noticePop value => cases h; exact (portPop_replayFrame s).replayOk hs
  | intEnable value enables => cases h; exact (portEnable_replayFrame _ _ s).replayOk hs
  | portWordWrite address value enables => exact execPortWordWrite_replayOk h hs
  | resetAsserted straps => cases h; exact replayOk_of_reset (atFullReset_pins (fullReset_atFullReset s) _)
  | resetReleased straps =>
    simp only [exec, execResetReleased] at h
    split at h <;> cases h
    · exact (beginStart_replayFrame s straps).replayOk hs
    · exact hs
  | paceAsserted n => exact (execPaceAsserted_replayFrame h).replayOk hs
  | paceDeasserted n => cases h; exact hs
  | lbgntAsserted => exact (execLbgntAsserted_replayFrame h).replayOk hs
  | lbgntDeasserted => exact (execLbgntDeasserted_replayFrame h).replayOk hs
  | lberr inCycle => exact execLberr_replayOk h hserve hs
  | busCycleComplete stores => exact execBusCycleComplete_replayOk h hline hserve hs
  | grantWaitExpiry => exact execGrantWaitExpiry_replayOk h hserve hs
  | startOpportunity => exact (execStartOpportunity_replayFrame h).replayOk hs
  | startMark seen => cases h; exact hs
  | roundLost => exact (execRoundLost_replayFrame h).replayOk hs
  | roundWon => exact (execRoundWon_replayFrame h).replayOk hs
  | frameCrcReceived conds => exact execFrameCrcReceived_replayOk h hs
  | frameEnd conds => exact (execFrameEnd_replayFrame h).replayOk hs
  | sentFrameEnd slot => exact execSentFrameEnd_replayOk h hserve hs
  | clash => exact (execClash_replayFrame h).replayOk hs
  | joiningTimerExpiry => exact (execJoiningTimerExpiry_replayFrame h).replayOk hs
  | responseTimerExpiry entry => exact (execResponseTimerExpiry_replayFrame h).replayOk hs
  | holdTimerExpiry entry => exact (execHoldTimerExpiry_replayFrame h).replayOk hs
  | formation => exact (execFormation_replayFrame h).replayOk hs
  | signalFormation => exact (execSignalFormation_replayFrame h).replayOk hs

/-- Settles O60: an admission makes its PUT's record PENDING, its execution end makes it SETTLED, a SIGNAL settles a
record that no PUT has, and no other event touches the operations that execute or the records; a reset makes both
anew. -/
theorem replayFollowsPuts : Obligations.ReplayFollowsPuts := by
  unfold Obligations.ReplayFollowsPuts
  rintro s t ⟨hserve, hreplay⟩ h
  refine ⟨servingStaysInStep s t hserve h, ?_⟩
  obtain ⟨-, hline, hok⟩ := (serveInv_iff s).mp hserve
  unfold step at h
  split at h
  · cases h; exact hreplay
  · rename_i c rest _
    exact exec_replayOk (s := { s with pending := rest }) h hline hok hreplay

end Sys2Proof.Machine
end

section
/-! Frames, requests and answers on the line: what leaves no trace, what the replay record decides, a SIGNAL's service,
and the send result of a response. -/

namespace Sys2Proof.Machine

/-! ### From a good frame to the unit it goes to -/

/-- A good frame's CRC ends the receipt in whatever the station makes of the frame (R124, R126, R137). -/
theorem frameCrcReceived_good {s : State} {conds : List LineCond} {f : Frame} (hrx : s.line.rx = .receiving)
    (hgood : receive conds = some f) : exec (.frameCrcReceived conds) s = .next
      ((s.takeFrame f).1.setLine { s.line with rx := .good f.claim.sender (s.takeFrame f).2 }) := by
  show execFrameCrcReceived conds s = _
  rw [execFrameCrcReceived, if_pos hrx, hgood]
  show Host.Outcome.next (s.receiveFrame f) = _
  rw [State.receiveFrame, takeFrame_line]

/-- A frame that is not taken leaves its sender in the receipt alone (R137). -/
theorem frameCrcReceived_ignored {s : State} {conds : List LineCond} {f : Frame} (hrx : s.line.rx = .receiving)
    (hgood : receive conds = some f) (hignored : s.takeFrame f = (s, false)) :
    exec (.frameCrcReceived conds) s = .next (s.setLine { s.line with rx := .good f.claim.sender false }) := by
  rw [frameCrcReceived_good hrx hgood, hignored]

theorem takeFrame_elsewhere {s : State} {f : Frame}
    (h : f.body.dest ≠ s.loader.number ∨ s.loader.station ≠ .running ∨ s.line.state ≠ .receiving) :
    s.takeFrame f = (s, false) := by
  rw [State.takeFrame, if_neg]
  rintro ⟨hdest, hrun, hst⟩
  rcases h with h | h | h
  · exact h hdest
  · exact h hrun
  · exact h hst

/-- A frame that is neither a request nor an answer is not taken (R25, R26). -/
theorem takeFrame_illFormed {s : State} {f : Frame} (hreq : frameRequest f = none) (hans : frameAnswer f = none) :
    s.takeFrame f = (s, false) := by
  unfold State.takeFrame
  rw [hreq, hans]
  exact ite_self _

/-- An answer addressed to a RUNNING, RECEIVING station is taken (R26). -/
theorem frameCrcReceived_answer {s : State} {conds : List LineCond} {f : Frame} {a : Answer} (h : Receives s conds f)
    (hdest : f.body.dest = s.loader.number) (hreq : frameRequest f = none) (hans : frameAnswer f = some a) :
    exec (.frameCrcReceived conds) s = .next
      ((s.takeAnswer a).setLine { s.line with rx := .good f.claim.sender true }) := by
  obtain ⟨hrun, hst, hrx, hgood⟩ := h
  have ht : s.takeFrame f = (s.takeAnswer a, true) := by
    rw [State.takeFrame, if_pos ⟨hdest, hrun, hst⟩, hreq, hans]
  rw [frameCrcReceived_good hrx hgood, ht]

/-! ### Well-formed requests and answers (R25, R26, R193) -/

theorem lengthInRange_iff (len : BitVec 7) : lengthInRange len = true ↔ 1 ≤ len.toNat ∧ len.toNat ≤ 64 := by
  simp [lengthInRange]

/-- A GET is a request exactly with a length of 1 to 64 (R25). -/
theorem frameRequest_get_illFormed {f : Frame} {dest : Station} {inc : Byte} {tag : Tag} {w : BitVec 5}
    {off : BitVec 24} {len : BitVec 7} (hbody : f.body = .get dest inc tag w off len)
    (hlen : len = 0 ∨ 64 < len.toNat) : frameRequest f = none := by
  have hrange : ¬lengthInRange len = true := by
    rw [lengthInRange_iff]
    rintro ⟨hlow, hhigh⟩
    rcases hlen with rfl | hlong
    · exact absurd hlow (by decide)
    · omega
  simp only [frameRequest, hbody, if_neg hrange]

/-- Each code but 7 names an outcome, and code 0 alone names OK (R193). -/
theorem ofCode_of_ne {o : BitVec 3} (h : o ≠ 7) : ∃ outcome, DoneOutcome.ofCode o = some outcome ∧
    (outcome = .ok ↔ o = 0) := by
  revert h
  revert o
  decide

theorem frameAnswer_done {f : Frame} {dest : Station} {tag : Tag} {o : BitVec 3} (hbody : f.body = .done dest tag o) :
    frameAnswer f = (DoneOutcome.ofCode o).map (.done tag) := by
  unfold frameAnswer
  rw [hbody]
  cases h : DoneOutcome.ofCode o <;> simp only [h] <;> rfl

theorem frameAnswer_data {f : Frame} {dest : Station} {tag : Tag} {len : BitVec 7} {pay : List Byte}
    (hbody : f.body = .data dest tag len pay) (hlow : 1 ≤ len.toNat) (hhigh : len.toNat ≤ 64)
    (hpay : pay.length = len.toNat) : frameAnswer f = some (.data tag pay) := by
  unfold frameAnswer
  rw [hbody]
  exact if_pos ⟨(lengthInRange_iff len).mpr ⟨hlow, hhigh⟩, hpay⟩

/-! ### Answers that match no entry (R109) -/

theorem tagEntry_eq {tag : Tag} {i : Fin 16} (hi : i.val = tag.entry.toNat) : tagEntry tag = i := Fin.ext hi.symm

theorem matchable_iff (st : EntryState) : st.matchable = true ↔ st = .queued ∨ st = .sent ∨ st = .holding := by
  cases st <;> simp [EntryState.matchable]

/-- Another epoch, another state or another form keeps an answer from its entry (R109). -/
theorem answerMatches_false {s : State} {a : Answer} {i : Fin 16} (hi : tagEntry a.tag = i)
    (h : (s.entries[i].epoch ≠ a.tag.epoch ∨
      (s.entries[i].state ≠ .queued ∧ s.entries[i].state ≠ .sent ∧ s.entries[i].state ≠ .holding)) ∨
      a.suits s.entries[i] = false) : answerMatches s a = false := by
  subst hi
  unfold answerMatches
  rcases h with (hepoch | ⟨hqueued, hsent, hholding⟩) | hform
  · rw [beq_false_of_ne hepoch]; rfl
  · have hst : s.entries[tagEntry a.tag].state.matchable = false := Bool.eq_false_iff.mpr fun hm => by
      rcases (matchable_iff _).mp hm with h | h | h
      · exact hqueued h
      · exact hsent h
      · exact hholding h
    rw [hst, Bool.and_false, Bool.false_and]
  · rw [hform, Bool.and_false]

/-- An answer that matches no entry is taken and leaves nothing else (R26, R109). -/
theorem frameCrcReceived_unmatched {s : State} {conds : List LineCond} {f : Frame} {a : Answer}
    (h : Receives s conds f) (hdest : f.body.dest = s.loader.number) (hreq : frameRequest f = none)
    (hans : frameAnswer f = some a) (hno : answerMatches s a = false) :
    exec (.frameCrcReceived conds) s = .next (s.setLine { s.line with rx := .good f.claim.sender true }) := by
  have hkept : s.takeAnswer a = s := if_neg (by rw [hno]; exact Bool.false_ne_true)
  rw [frameCrcReceived_answer h hdest hreq hans, hkept]

/-- A DONE OK suits no GET (R109). -/
theorem suits_done_get {tag : Tag} {outcome : DoneOutcome} {e : Entry} (hkind : e.kind = .get) (ho : outcome = .ok) :
    (Answer.done tag outcome).suits e = false := by
  subst ho
  simp only [Answer.suits, hkind]
  rfl

/-- A DATA suits a GET of its own length alone (R109). -/
theorem suits_data {tag : Tag} {pay : List Byte} {e : Entry} (h : e.kind ≠ .get ∨ e.length ≠ pay.length) :
    (Answer.data tag pay).suits e = false := by
  unfold Answer.suits
  cases hk : e.kind with
  | put => rfl
  | signal => rfl
  | get => exact beq_false_of_ne (Ne.symm (h.resolve_left fun hne => hne hk))

/-- Settles O30: a frame that goes to no unit leaves the receipt's memory of its sender, and an answer without an entry
that it matches is taken and discarded. -/
theorem framesThatLeaveNoTrace : Obligations.FramesThatLeaveNoTrace := by
  unfold Obligations.FramesThatLeaveNoTrace
  refine ⟨fun s conds f => ⟨fun hrx hgood helse => ?elsewhere, fun hrec hdest hform => ?illFormed, fun hbad => ?bad,
    fun hrx => ?noReceipt⟩, fun s conds f tag i unmatched hrec hi hun => ⟨fun o hbody ho hno => ?done,
    fun len pay hbody hlow hhigh hpay hno => ?data⟩, fun body => ?dest⟩
  case elsewhere => exact frameCrcReceived_ignored hrx hgood (takeFrame_elsewhere helse)
  case illFormed =>
    obtain ⟨-, -, hrx, hgood⟩ := hrec
    refine frameCrcReceived_ignored hrx hgood ?_
    rcases hform with ⟨inc, tag, w, off, len, hbody, hlen⟩ | ⟨tag, hbody⟩
    · exact takeFrame_illFormed (frameRequest_get_illFormed hbody hlen) (by rw [frameAnswer, hbody])
    · exact takeFrame_illFormed (by rw [frameRequest, hbody]) (by rw [frameAnswer_done hbody]; rfl)
  case bad =>
    show execFrameCrcReceived conds s = _
    rw [execFrameCrcReceived, hbad]
    exact ite_self _
  case noReceipt => exact if_neg hrx
  case done =>
    subst hun
    obtain ⟨outcome, hcode, hok⟩ := ofCode_of_ne ho
    refine frameCrcReceived_unmatched hrec (by rw [hbody]; rfl) (by rw [frameRequest, hbody])
      (by rw [frameAnswer_done hbody, hcode]; rfl) (answerMatches_false (tagEntry_eq hi) (hno.imp_right ?_))
    rintro ⟨hkind, hzero⟩
    exact suits_done_get hkind (hok.mpr hzero)
  case data =>
    subst hun
    refine frameCrcReceived_unmatched hrec (by rw [hbody]; rfl) (by rw [frameRequest, hbody])
      (frameAnswer_data hbody hlow hhigh hpay) (answerMatches_false (tagEntry_eq hi) (hno.imp_right fun hform => ?_))
    exact suits_data (hpay ▸ hform)
  case dest => cases body <;> rfl

/-! ### The replay record decides (R29, R32) -/

theorem takeRequest_absorbed {s : State} {r : Request} (h : replayLookup s r = .absorbed) :
    s.takeRequest r = (s, true) := by rw [State.takeRequest, h]

theorem takeRequest_refused {s : State} {r : Request} (h : replayLookup s r = .refused) :
    s.takeRequest r = (s, false) := by rw [State.takeRequest, h]

theorem takeRequest_settled {s : State} {r : Request} {o : ReplayOutcome} {k : Fin 8}
    (h : replayLookup s r = .settled o) (hk : freeSlot s = some k) :
    s.takeRequest r = ((s.placePayload r).answerAtOnce k r o.answer, true) := by
  simp only [State.takeRequest, h, hk]

theorem takeRequest_fresh {s : State} {r : Request} {k : Fin 8} (h : replayLookup s r = .fresh)
    (hk : freeSlot s = some k) : s.takeRequest r = ((s.placePayload r).serveFresh k r, true) := by
  simp only [State.takeRequest, h, hk]

/-- Without a free slot a request is taken only where a PENDING record absorbs it (R25, R32). -/
theorem takeRequest_noSlot {s : State} {r : Request} (h : replayLookup s r ≠ .absorbed) (hk : freeSlot s = none) :
    s.takeRequest r = (s, false) := by
  cases hl : replayLookup s r with
  | absorbed => exact absurd hl h
  | refused => exact takeRequest_refused hl
  | settled o => simp only [State.takeRequest, hl, hk]
  | fresh => simp only [State.takeRequest, hl, hk]

section
variable {s : State} {r : Request} (hkind : r.kind ≠ .get)
include hkind

theorem replayLookup_pending (hst : (requestRecord s r).state = .pending) : replayLookup s r =
    if (requestRecord s r).incarnation = r.incarnation ∧ (requestRecord s r).epoch = r.tag.epoch then .absorbed
    else .refused := by
  cases hk : r.kind with
  | get => exact absurd hk hkind
  | put => simp only [replayLookup, hk, hst]
  | signal => simp only [replayLookup, hk, hst]

theorem replayLookup_settled (hst : (requestRecord s r).state = .settled) : replayLookup s r =
    if (requestRecord s r).incarnation = r.incarnation ∧ (requestRecord s r).epoch = r.tag.epoch then
      .settled ((requestRecord s r).outcome.getD .ok)
    else .fresh := by
  cases hk : r.kind with
  | get => exact absurd hk hkind
  | put => simp only [replayLookup, hk, hst]
  | signal => simp only [replayLookup, hk, hst]

end

/-- Only a PENDING record absorbs a request (R32). -/
theorem replayLookup_ne_absorbed {s : State} {r : Request} (hst : (requestRecord s r).state ≠ .pending) :
    replayLookup s r ≠ .absorbed := by
  by_cases hkind : r.kind = .get
  · rw [replayLookup, hkind]; exact Lookup.noConfusion
  · cases hrec : (requestRecord s r).state with
    | pending => exact absurd hrec hst
    | empty =>
      rw [replayLookup_fresh hst (by rw [hrec]; exact fun h => ReplayState.noConfusion h)]
      exact Lookup.noConfusion
    | settled =>
      rw [replayLookup_settled hkind hrec]
      split <;> exact Lookup.noConfusion

/-! ### The payload, the slot and the record of a request (R23, R24, R30, R41) -/

theorem placePayload_other {s : State} {r : Request} (h : r.kind ≠ .put) : s.placePayload r = s := if_neg h

/-- A PUT's payload stands ahead of the bytes that stood in the buffer after it (R30, R148). -/
theorem placePayload_put {s : State} {r : Request} {b : Fin 24} (hkind : r.kind = .put) (hb : freeBuffer s = some b)
    (hlen : r.payload.length ≤ 64) : ∃ data : Vector Byte 64,
      s.placePayload r = s.setBuffer b { s.buffers[b] with data := data } ∧
      data.toList = r.payload ++ s.buffers[b].data.toList.drop r.payload.length := by
  refine ⟨putBytes s.buffers[b].data 0 r.payload, ?_, ?_⟩
  · rw [State.placePayload, if_pos hkind, hb]; rfl
  · rw [putBytes_toList r.payload _ 0 (by omega)]
    simp

theorem freeBuffer_owner {s : State} {b : Fin 24} (h : freeBuffer s = some b) : s.buffers[b].owner = none :=
  Option.isNone_iff_eq_none.mp (List.find?_some (p := fun b : Fin 24 => s.buffers[b].owner.isNone) h)

theorem freeSlot_eq_none_iff (s : State) : freeSlot s = none ↔ ∀ k : Fin 8, s.slots[k] ≠ none := by
  simp only [freeSlot, List.find?_eq_none, List.mem_finRange, true_implies, Option.isNone_iff_eq_none, ne_eq]

/-- The number that two fields spell, the first above the second. -/
theorem toNat_append_eq {n m : Nat} (x : BitVec n) (y : BitVec m) : (x ++ y).toNat = 2 ^ m * x.toNat + y.toNat := by
  rw [BitVec.toNat_append, ← Nat.shiftLeft_add_eq_or_of_lt y.isLt, Nat.shiftLeft_eq, Nat.mul_comm]

/-- Each pair of a requester station and an entry index has a record of its own (R41). -/
theorem replayIndex_injective {sender sender' : Station} {entry entry' : BitVec 4}
    (h : replayIndex sender entry = replayIndex sender' entry') : sender = sender' ∧ entry = entry' := by
  have hnumber : (sender ++ entry).toNat = (sender' ++ entry').toNat := congrArg Fin.val h
  rw [toNat_append_eq, toNat_append_eq] at hnumber
  have hlow := entry.isLt
  have hlow' := entry'.isLt
  constructor <;> apply BitVec.eq_of_toNat_eq <;> omega

/-- The request a frame carries, kind by kind (R23, R25). -/
theorem frameRequest_eq (f : Frame) : frameRequest f = match f.body with
    | .put _ inc tag w off len pay =>
      if 1 ≤ len.toNat ∧ len.toNat ≤ 64 ∧ pay.length = len.toNat then
        some { sender := f.claim.sender, kind := .put, incarnation := inc, tag := tag, window := w.toFin
               offset := off.toNat, length := len.toNat, payload := pay, value := 0 }
      else none
    | .get _ inc tag w off len =>
      if 1 ≤ len.toNat ∧ len.toNat ≤ 64 then
        some { sender := f.claim.sender, kind := .get, incarnation := inc, tag := tag, window := w.toFin
               offset := off.toNat, length := len.toNat, payload := [], value := 0 }
      else none
    | .signal _ inc tag value =>
      some { sender := f.claim.sender, kind := .signal, incarnation := inc, tag := tag, window := 0, offset := 0
             length := 0, payload := [], value := value }
    | _ => none := by
  unfold frameRequest
  cases f.body with
  | put d inc tag w off len pay => simp only [lengthInRange_iff, and_assoc]
  | get d inc tag w off len => simp only [lengthInRange_iff]
  | signal d inc tag value => rfl
  | data d tag len pay => rfl
  | done d tag o => rfl

/-- Settles O35: the lookup's four answers, each with a free slot and without, and what a taken PUT does to its
buffer. -/
theorem replayRecordDecides : Obligations.ReplayRecordDecides := by
  unfold Obligations.ReplayRecordDecides
  refine ⟨fun s conds f r hrec hdest hreq => frameCrcReceived_request hrec hdest hreq, ?record, ?get, ?payload, ?buffer,
    fun s => ⟨fun k hk => freeSlot_none hk, freeSlot_eq_none_iff s⟩, fun _ _ _ _ h => replayIndex_injective h,
    frameRequest_eq, fun r => rfl⟩
  case record =>
    rintro s r rec hkind (rfl : requestRecord s r = rec)
    refine ⟨fun hst hinc hepoch => ?absorbed, fun hst hother => ?refused, fun k o hst hinc hepoch ho hk => ?settled,
      fun hst hk => takeRequest_noSlot (replayLookup_ne_absorbed hst) hk, fun k hst hk => ?fresh⟩
    case absorbed => exact takeRequest_absorbed ((replayLookup_pending hkind hst).trans (if_pos ⟨hinc, hepoch⟩))
    case refused =>
      exact takeRequest_refused ((replayLookup_pending hkind hst).trans (if_neg (not_and_or.mpr hother)))
    case settled =>
      have hl := (replayLookup_settled hkind hst).trans (if_pos ⟨hinc, hepoch⟩)
      have hanswer : ((requestRecord s r).outcome.getD .ok).answer = o := by
        rcases ho with ⟨hout, rfl⟩ | ⟨hout, rfl⟩ <;> rw [hout] <;> rfl
      rw [takeRequest_settled hl hk, hanswer, ← (placePayload_quiet s r).sendOrder]
      rfl
    case fresh =>
      refine takeRequest_fresh (replayLookup_fresh (fun hp => ?_) fun hs => ?_) hk
      · rcases hst with he | ⟨hs, -⟩
        · cases he.symm.trans hp
        · cases hs.symm.trans hp
      · rcases hst with he | ⟨-, hother⟩
        · cases he.symm.trans hs
        · exact hother
  case get =>
    intro s r hkind
    have hl : replayLookup s r = .fresh := by rw [replayLookup, hkind]
    exact ⟨takeRequest_noSlot (by rw [hl]; exact Lookup.noConfusion), fun k hk => takeRequest_fresh hl hk⟩
  case payload =>
    exact fun s r => ⟨placePayload_other, fun b hkind hb hlen => ⟨freeBuffer_owner hb, placePayload_put hkind hb hlen⟩⟩
  case buffer =>
    intro s k hpool hk
    obtain ⟨b, hb, -⟩ := freeBuffer_of_freeSlot hpool hk
    rw [hb]
    exact Option.some_ne_none b

/-! ### A SIGNAL (R33, R37) -/

/-- The request a SIGNAL frame carries (R25). -/
def signalRequestOf (f : Frame) (inc : Byte) (tag : Tag) (value : Word) : Request :=
  ⟨f.claim.sender, .signal, inc, tag, 0, 0, 0, [], value⟩

section
variable {s : State} {k : Fin 8} (r : Request)

theorem serveSignal_denied (hgrant : inGrants s.loader.config.signalGrants r.sender = false) :
    s.serveSignal k r = s.answerAtOnce k r .denied := if_pos hgrant

theorem serveSignal_full (hgrant : inGrants s.loader.config.signalGrants r.sender = true)
    (hfull : Config.signalNoticeLimit < s.notices.records.length) : s.serveSignal k r = s.answerAtOnce k r .full := by
  rw [State.serveSignal, if_neg (by rw [hgrant]; exact Bool.noConfusion), if_pos hfull]

theorem serveSignal_served (hgrant : inGrants s.loader.config.signalGrants r.sender = true)
    (hroom : s.notices.records.length ≤ Config.signalNoticeLimit) : s.serveSignal k r =
      ((s.post (.remoteSignal r.sender r.value)).setReplay (replayIndex r.sender r.tag.entry)
        ⟨.settled, r.incarnation, r.tag.epoch, some .ok⟩).answerAtOnce k r .ok := by
  rw [State.serveSignal, if_neg (by rw [hgrant]; exact Bool.noConfusion), if_neg (Nat.not_lt.mpr hroom)]

end

/-- A SIGNAL past the replay lookup, with a free slot, is served in the event that takes it (R25, R31). -/
theorem frameCrcReceived_signal {s : State} {conds : List LineCond} {f : Frame} {inc : Byte} {tag : Tag} {value : Word}
    {k : Fin 8} (hrec : Receives s conds f) (hbody : f.body = .signal s.loader.number inc tag value)
    (hlook : replayLookup s (signalRequestOf f inc tag value) = .fresh) (hk : freeSlot s = some k) :
    exec (.frameCrcReceived conds) s = .next ((s.serveSignal k (signalRequestOf f inc tag value)).setLine
      { s.line with rx := .good f.claim.sender true }) := by
  have hreq : frameRequest f = some (signalRequestOf f inc tag value) := by rw [frameRequest, hbody]; rfl
  have hserve : s.serveFresh k (signalRequestOf f inc tag value) = s.serveSignal k (signalRequestOf f inc tag value) :=
    if_pos rfl
  rw [frameCrcReceived_request hrec (by rw [hbody]; rfl) hreq, takeRequest_fresh hlook hk,
    placePayload_other RequestKind.noConfusion, hserve]

/-- Settles O34: past the lookup a SIGNAL's grant and then the room for its notice decide, and it places no payload. -/
theorem signalServed : Obligations.SignalServed := by
  unfold Obligations.SignalServed
  rintro s conds f inc tag value k n l answer hrec hbody rfl hpending hsettled hk rfl rfl
  have hlook : replayLookup s (signalRequestOf f inc tag value) = .fresh := replayLookup_fresh hpending hsettled
  rw [frameCrcReceived_signal hrec hbody hlook hk]
  refine ⟨fun hgrant => ?denied, fun hgrant hfull => ?full, fun hgrant hroom => ?served⟩
  case denied => rw [serveSignal_denied (signalRequestOf f inc tag value) hgrant]; rfl
  case full => rw [serveSignal_full (signalRequestOf f inc tag value) hgrant hfull]; rfl
  case served => rw [serveSignal_served (signalRequestOf f inc tag value) hgrant hroom]; rfl

/-! ### The send result of a response (R46) -/

/-- The end of a response frame gives its operation the acceptance result (R137, R139). -/
theorem sentFrameEnd_response {s : State} {slot : LineCond} {h : Hand} {k : Fin 8} (hst : s.line.state = .sending)
    (hhand : s.line.hand = some h) (hown : h.owner = .response k) : exec (.sentFrameEnd slot) s = .next
      (State.responseSent
        (s.setLine { s.line with state := .idle, lastWinner := s.loader.number, clashes := 0, hand := none })
        k (slotTaken slot)) := by
  show execSentFrameEnd slot s = _
  simp only [execSentFrameEnd, hst, hhand, hown, State.giveResult]

theorem filter_ne_cons {k : Fin 8} {rest : List (Fin 8)} (h : k ∉ rest) :
    (k :: rest).filter (fun x => x != k) = rest := by
  rw [List.filter_cons_of_neg (by simp), List.filter_eq_self]
  exact fun x hx => bne_iff_ne.mpr fun he => h (he ▸ hx)

/-- TAKEN, or NOT_TAKEN for the fourth time, ends the operation (R46). -/
theorem responseSent_ended {s : State} {k : Fin 8} {op : Operation} {taken : Bool} (hop : s.slots[k] = some op)
    (h : taken = true ∨ 3 ≤ op.sendCount) : s.responseSent k taken = s.endOperation k op := by
  simp only [State.responseSent, hop]
  rcases h with htaken | hcount
  · rw [if_pos htaken]
  · rw [if_neg (Nat.not_lt.mpr hcount), ite_self]

/-- NOT_TAKEN sends the response again behind the others (R46). -/
theorem responseSent_again {s : State} {k : Fin 8} {op : Operation} (hop : s.slots[k] = some op)
    (hcount : op.sendCount ≤ 2) : s.responseSent k false =
      { s.setSlot k (some { op with sendCount := op.sendCount + 1 }) with
        sendOrder := (s.sendOrder.filter fun x => x != k) ++ [k] } := by
  simp only [State.responseSent, hop]
  rw [if_neg Bool.false_ne_true, if_pos (Nat.lt_succ_of_le hcount)]

/-- Settles O24: the head of the send order leaves it and, where it is to be sent again, joins its tail. -/
theorem responseSendResult : Obligations.ResponseSendResult := by
  unfold Obligations.ResponseSendResult
  rintro s slot h k rest op l hst hhand hown horder hnot hop rfl
  have hrest : s.sendOrder.filter (fun x => x != k) = rest := by rw [horder]; exact filter_ne_cons hnot
  rw [sentFrameEnd_response hst hhand hown]
  subst hrest
  refine ⟨fun hend => ?ended, fun hslot hcount => ?again⟩
  case ended =>
    have htaken : slotTaken slot = true ∨ 3 ≤ op.sendCount := hend.imp_left bne_iff_ne.mpr
    refine congrArg Host.Outcome.next ((responseSent_ended (op := op) ?_ htaken).trans ?_)
    · exact hop
    · unfold State.endOperation
      cases op.buffer <;> rfl
  case again =>
    subst hslot
    exact congrArg Host.Outcome.next (responseSent_again hop hcount)

end Sys2Proof.Machine
end

section
/-! The end of an operation's job, by its last cycle or by a fault: what the engine lets go and what the operation's
window, record and slot are left with (R38, R39, R52 to R54, R157). -/

namespace Sys2Proof.Machine

/-! ### The last cycle and the fault -/

/-- The last cycle of a MOVING job moves its bytes and ends the job (R154, R157). -/
theorem busCycleComplete_last {s : State} {stores : List Host.Cell} {j : Job} (hj : s.engine.job = some j)
    (hphase : j.phase = .moving) (hstores : ∀ c ∈ stores, c.1 < 16777216)
    (hcycle : ∀ a ∈ j.cycleAddresses, a < 16777216) (hlast : j.length ≤ j.moved + j.cycleLength) :
    exec (.busCycleComplete stores) s = .next
      ((State.moveCycle { s with mem := Memory.writeCells s.mem stores } j).endJob j.owner false) := by
  have hinside : ((stores.all fun c => decide (c.1 < Config.memorySize)) &&
      j.cycleAddresses.all fun a => decide (a < Config.memorySize)) = true := by
    simp only [Bool.and_eq_true, List.all_eq_true, decide_eq_true_eq]
    exact ⟨hstores, hcycle⟩
  show execBusCycleComplete stores s = _
  simp only [execBusCycleComplete, hj, hphase, hinside, if_true, State.completeCycle, if_pos hlast]

/-- LBERR in a cycle and the end of the grant wait end the started job in a fault (R153, R156). -/
theorem jobFault_endJob {s : State} {j : Job} {c : Instr} (hj : s.engine.job = some j)
    (hc : c = .lberr true ∧ j.phase = .moving ∨ c = .grantWaitExpiry ∧ j.phase = .requesting) :
    exec c s = .next (s.endJob j.owner true) := by
  rcases hc with ⟨rfl, hphase⟩ | ⟨rfl, hphase⟩
  · show execLberr s true = _
    simp only [execLberr, hj, hphase, and_self, if_true]
  · show execGrantWaitExpiry s = _
    simp only [execGrantWaitExpiry, hj, hphase, if_true]

theorem moveCycle_write {s : State} {j : Job} (h : j.kind = .write) :
    s.moveCycle j = { s with mem := Memory.writeCells s.mem (cycleCells s j) } := by
  rw [State.moveCycle, h]

theorem moveCycle_read {s : State} {j : Job} {b : Fin 24} (h : j.kind = .read) (hb : j.buffer = some b) :
    s.moveCycle j = s.setBuffer b { s.buffers[b] with data := placeBytes s.buffers[b].data s.mem j } := by
  rw [State.moveCycle, h, hb]

/-! ### The operation's part, and the engine let go -/

theorem releaseEngine_executionEnded (s : State) (k : Fin 8) (op : Operation) (i : Fin 32) (faulted : Bool) :
    s.releaseEngine.executionEnded k op i faulted = (s.executionEnded k op i faulted).releaseEngine := by
  unfold State.executionEnded
  rw [← releaseEngine_returnBuffer]
  rfl

/-- The end of an operation's job: the operation's part, and then the engine goes on to the lists (R157). -/
theorem endJob_operation {s : State} {k : Fin 8} {op : Operation} {i : Fin 32} (hop : s.slots[k] = some op)
    (hi : op.window = some i) (faulted : Bool) :
    s.endJob (.operation k) faulted = (s.executionEnded k op i faulted).jobLetGo := by
  have hpart : s.releaseEngine.operationJobEnd k faulted = (s.executionEnded k op i faulted).releaseEngine :=
    (operationJobEnd_eq (s := s.releaseEngine) hop hi faulted).trans (releaseEngine_executionEnded s k op i faulted)
  rw [← releaseEngine_selectJob, ← hpart]
  rfl

/-- The last cycle of an operation's job: its bytes move, its execution ends, and the engine goes on (R154, R157). -/
theorem busCycleComplete_operation {s : State} {stores : List Host.Cell} {j : Job} {k : Fin 8} {op : Operation}
    {i : Fin 32} (hj : s.engine.job = some j) (hphase : j.phase = .moving) (hown : j.owner = .operation k)
    (hstores : ∀ c ∈ stores, c.1 < 16777216) (hcycle : ∀ a ∈ j.cycleAddresses, a < 16777216)
    (hlast : j.length ≤ j.moved + j.cycleLength) (hop : s.slots[k] = some op) (hi : op.window = some i) :
    exec (.busCycleComplete stores) s = .next
      ((State.moveCycle { s with mem := Memory.writeCells s.mem stores } j).executionEnded k op i false).jobLetGo := by
  have hslots : (State.moveCycle { s with mem := Memory.writeCells s.mem stores } j).slots = s.slots :=
    (moveCycle_replayFrame { s with mem := Memory.writeCells s.mem stores } j).slots
  rw [busCycleComplete_last hj hphase hstores hcycle hlast, hown, endJob_operation (by rw [hslots]; exact hop) hi]

section
variable {s : State} {k : Fin 8} {op : Operation} {i : Fin 32}

/-- A PUT's execution end (R38, R53). -/
theorem executionEnded_put (hkind : op.kind = .put) : s.executionEnded k op i false = State.returnBuffer
    { s with
      windows := s.windows.set i (executionEnd i s.windows[i] op.mailboxSlot []).1
      notices := (executionEnd i s.windows[i] op.mailboxSlot []).2.foldl NoticeQueue.post s.notices
      replay := s.replay.set (replayIndex op.requester op.tag.entry)
        ⟨.settled, op.incarnation, op.tag.epoch, some .ok⟩
      slots := s.slots.set k (some { op with phase := .answering, buffer := none, response := some (.done .ok) })
      sendOrder := s.sendOrder ++ [k] }
    op.buffer := by
  have hresp : executionResponse op false = .done .ok := by rw [executionResponse, hkind]; rfl
  simp only [State.executionEnded, Operation.ended, Operation.returned, Operation.faultNotices, hresp, hkind, if_true,
    Bool.false_eq_true, if_false, reduceCtorEq]

/-- A GET's execution end: its buffer is the DATA's, and no record is its (R38). -/
theorem executionEnded_get (hkind : op.kind = .get) : s.executionEnded k op i false =
    { s with
      windows := s.windows.set i (executionEnd i s.windows[i] op.mailboxSlot []).1
      notices := (executionEnd i s.windows[i] op.mailboxSlot []).2.foldl NoticeQueue.post s.notices
      slots := s.slots.set k (some { op with phase := .answering, response := some .data })
      sendOrder := s.sendOrder ++ [k] } := by
  have hresp : executionResponse op false = .data := by rw [executionResponse, hkind]; rfl
  simp only [State.executionEnded, Operation.ended, Operation.returned, Operation.faultNotices, hresp, hkind, if_true,
    Bool.false_eq_true, if_false, reduceCtorEq, State.returnBuffer]

/-- A faulted execution's end: LOCAL_FAULT, DONE FAULT and no buffer (R39). -/
theorem executionEnded_fault {address : Nat} (ha : op.localAddress = some address) :
    s.executionEnded k op i true = State.returnBuffer
      { s with
        windows := s.windows.set i
          (executionEnd i s.windows[i] op.mailboxSlot [.localFault i address op.mailboxSlot]).1
        notices := (executionEnd i s.windows[i] op.mailboxSlot [.localFault i address op.mailboxSlot]).2.foldl
          NoticeQueue.post s.notices
        replay := if op.kind = .put then
            s.replay.set (replayIndex op.requester op.tag.entry) ⟨.settled, op.incarnation, op.tag.epoch, some .fault⟩
          else s.replay
        slots := s.slots.set k (some { op with phase := .answering, buffer := none, response := some (.done .fault) })
        sendOrder := s.sendOrder ++ [k] }
      op.buffer := by
  have hresp : executionResponse op true = .done .fault := rfl
  simp only [State.executionEnded, Operation.ended, Operation.returned, Operation.faultNotices, hresp, ha, if_true,
    if_false, reduceCtorEq, Option.getD_some]

end

/-- Settles O43: the last cycle stores its bytes, and the PUT's execution ends at the state those leave. -/
theorem putWriteEnds : Obligations.PutWriteEnds := by
  unfold Obligations.PutWriteEnds
  rintro s stores j k op i w hj hphase hown hkind hstores hcycle hlast hop hput hi hslot - rfl
  rw [busCycleComplete_operation hj hphase hown hstores hcycle hlast hop hi, moveCycle_write hkind,
    executionEnded_put hput, hslot]
  rfl

/-- Settles O44: the last cycle of a read places its bytes and the GET's execution ends, and that of a slot write stores
its bytes and the PUT's ends. -/
theorem readAndSlotWriteEnd : Obligations.ReadAndSlotWriteEnd := by
  unfold Obligations.ReadAndSlotWriteEnd
  rintro s stores j k op i m w hj hphase hown hstores hcycle hlast hop hi - rfl rfl
  rw [busCycleComplete_operation hj hphase hown hstores hcycle hlast hop hi]
  refine ⟨fun b hkind hb hget _ => ?read, fun slot hkind hput _ => ?slotWrite⟩
  case read =>
    rw [moveCycle_read hkind hb, executionEnded_get hget]
    rfl
  case slotWrite =>
    rw [moveCycle_write hkind, executionEnded_put hput]
    rfl

/-- Settles O46: both faults end the job, and the execution's end commits a mailbox slot all the same. -/
theorem jobFaultAnswersFault : Obligations.JobFaultAnswersFault := by
  unfold Obligations.JobFaultAnswersFault
  rintro s j k op i address c w hj hown hc hop - hi ha - rfl
  rw [jobFault_endJob hj hc, hown, endJob_operation hop hi, executionEnded_fault ha]

end Sys2Proof.Machine
end

section
/-! What a cycle moves: its positions and addresses, the bytes it stores and places, and a mailbox slot's bytes (R52,
R154, R195). -/

namespace Sys2Proof.Machine

/-! ### Positions and addresses (R154) -/

theorem mem_cyclePositions {j : Job} {k : Nat} :
    k ∈ j.cyclePositions ↔ j.moved ≤ k ∧ k < j.moved + j.cycleLength := by
  simp only [Job.cyclePositions, List.mem_map, List.mem_range]
  constructor
  · rintro ⟨i, hi, rfl⟩; omega
  · rintro ⟨hlow, hhigh⟩; exact ⟨k - j.moved, by omega, by omega⟩

theorem cycleLength_le (j : Job) : j.cycleLength ≤ 4 - j.byteAddress j.moved % 4 ∧
    j.cycleLength ≤ j.runEnd j.moved - j.moved := ⟨Nat.min_le_left _ _, Nat.min_le_right _ _⟩

theorem byteAddress_plain {j : Job} (h : j.mailboxSlot = none) (k : Nat) : j.byteAddress k = j.address + k := by
  rw [Job.byteAddress, h]

/-- The data of a mailbox slot stand above its header (R49, R52). -/
theorem byteAddress_data {j : Job} {slot k : Nat} (h : j.mailboxSlot = some slot) (hk : k < 64) :
    j.byteAddress k = j.address + 8 + k := by
  simp only [Job.byteAddress, h]
  exact if_pos hk

theorem byteAddress_header {j : Job} {slot k : Nat} (h : j.mailboxSlot = some slot) (hk : 64 ≤ k) :
    j.byteAddress k = j.address + (k - 64) := by
  simp only [Job.byteAddress, h]
  exact if_neg (Nat.not_lt.mpr hk)

theorem runEnd_plain {j : Job} (h : j.mailboxSlot = none) (k : Nat) : j.runEnd k = j.length := by
  rw [Job.runEnd, h]

theorem runEnd_data {j : Job} {slot k : Nat} (h : j.mailboxSlot = some slot) (hk : k < 64) : j.runEnd k = 64 := by
  simp only [Job.runEnd, h]
  exact if_pos hk

theorem runEnd_header {j : Job} {slot k : Nat} (h : j.mailboxSlot = some slot) (hk : 64 ≤ k) :
    j.runEnd k = j.length := by
  simp only [Job.runEnd, h]
  exact if_neg (Nat.not_lt.mpr hk)

/-- Inside a run of a job the addresses rise with the positions. -/
theorem byteAddress_run {j : Job} {k : Nat} (hlow : j.moved ≤ k) (hrun : k < j.runEnd j.moved) :
    j.byteAddress k = j.byteAddress j.moved + (k - j.moved) := by
  cases hslot : j.mailboxSlot with
  | none => rw [byteAddress_plain hslot, byteAddress_plain hslot]; omega
  | some slot =>
    by_cases hm : j.moved < 64
    · rw [runEnd_data hslot hm] at hrun
      rw [byteAddress_data hslot hm, byteAddress_data hslot hrun]
      omega
    · rw [byteAddress_header hslot (by omega), byteAddress_header hslot (by omega)]
      omega

/-- Every byte of a cycle is in the aligned word of the next one and in its run (R154). -/
theorem cyclePositions_word {j : Job} {k : Nat} (h : k ∈ j.cyclePositions) :
    j.byteAddress k / 4 = j.byteAddress j.moved / 4 ∧ k < j.runEnd j.moved := by
  obtain ⟨hlow, hhigh⟩ := mem_cyclePositions.mp h
  obtain ⟨hword, hend⟩ := cycleLength_le j
  have hrun : k < j.runEnd j.moved := by omega
  refine ⟨?_, hrun⟩
  rw [byteAddress_run hlow hrun]
  omega

/-- A cycle of a job at ascending addresses goes to the end of its word or of the job (R154). -/
theorem cycleLength_plain {j : Job} (h : j.mailboxSlot = none) (hmore : j.moved < j.length) : 1 ≤ j.cycleLength ∧
    (j.moved + j.cycleLength = j.length ∨ (j.address + j.moved + j.cycleLength) % 4 = 0) := by
  have hlen : j.cycleLength = min (4 - (j.address + j.moved) % 4) (j.length - j.moved) := by
    rw [Job.cycleLength, byteAddress_plain h, runEnd_plain h]
  omega

/-- A slot write at an aligned address goes a word at a time (R52, R154). -/
theorem cycleLength_slot {j : Job} {slot : Nat} (h : j.mailboxSlot = some slot) (hlen : j.length = 72)
    (haddress : j.address % 4 = 0) (hmoved : j.moved % 4 = 0) (hmore : j.moved < 72) : j.cycleLength = 4 := by
  rw [Job.cycleLength]
  by_cases hm : j.moved < 64
  · rw [byteAddress_data h hm, runEnd_data h hm]; omega
  · rw [byteAddress_header h (by omega), runEnd_header h (by omega)]; omega

/-! ### The bytes (R35, R111, R154) -/

theorem bufferByte_eq (s : State) (b : Fin 24) (k : Fin 64) : bufferByte s (some b) k.val = s.buffers[b].data[k] := by
  simp [bufferByte, List.getD_eq_getElem?_getD]

theorem jobByte_plain {s : State} {j : Job} (h : j.mailboxSlot = none) (k : Nat) :
    jobByte s j k = bufferByte s j.buffer k := by
  rw [jobByte, h]

/-- Placing bytes at a list of positions replaces those and no others. -/
theorem foldl_setIfInBounds_getElem {n : Nat} (value : Nat → Byte) (positions : List Nat) (data : Vector Byte n)
    (k : Fin n) : (positions.foldl (fun d p => d.setIfInBounds p (value p)) data)[k] =
      if k.val ∈ positions then value k.val else data[k] := by
  induction positions generalizing data with
  | nil => simp
  | cons p rest ih =>
    rw [List.foldl_cons, ih]
    by_cases hrest : k.val ∈ rest
    · rw [if_pos hrest, if_pos (List.mem_cons_of_mem p hrest)]
    · rw [if_neg hrest]
      by_cases hp : p = k.val
      · subst hp; simp
      · simp [hrest, Ne.symm hp, hp]

theorem placeBytes_getElem {n : Nat} (data : Vector Byte n) (m : Memory) (j : Job) (k : Fin n) :
    (placeBytes data m j)[k] = if k.val ∈ j.cyclePositions then Memory.read m (j.byteAddress k.val) else data[k] :=
  foldl_setIfInBounds_getElem (fun p => Memory.read m (j.byteAddress p)) j.cyclePositions data k

/-! ### A mailbox slot's bytes (R52, R195) -/

section
variable {s : State} {j : Job} {k : Fin 8} {op : Operation} {slot len : Nat} (hslot : j.mailboxSlot = some slot)
  (hown : j.owner = .operation k) (hop : s.slots[k] = some op) (hlen : op.length = some len)
include hslot hown hop

theorem jobByte_slot (p : Nat) : jobByte s j p =
    if p < 64 then (if p < op.length.getD 0 then bufferByte s j.buffer p else 0) else headerByte op (p - 64) := by
  have howner : ownerOperation s j.owner = some op := by rw [hown]; exact hop
  simp only [jobByte, hslot, howner]
  rfl

theorem jobByte_header (p : Nat) : jobByte s j (64 + p) = headerByte op p := by
  rw [jobByte_slot hslot hown hop, if_neg (by omega), Nat.add_sub_cancel_left]

include hlen

theorem jobByte_payload {p : Nat} (hp : p < len) (hfits : p < 64) : jobByte s j p = bufferByte s j.buffer p := by
  rw [jobByte_slot hslot hown hop, if_pos hfits, hlen, Option.getD_some, if_pos hp]

theorem jobByte_padding {p : Nat} (hp : len ≤ p) (hfits : p < 64) : jobByte s j p = 0 := by
  rw [jobByte_slot hslot hown hop, if_pos hfits, hlen, Option.getD_some, if_neg (Nat.not_lt.mpr hp)]

end

/-- A 16-bit word stands little-endian in two bytes (R195). -/
theorem littleEndian_toNat (v : BitVec 16) :
    (v.extractLsb' 0 8).toNat + 256 * (v.extractLsb' 8 8).toNat = v.toNat := by
  have hv := v.isLt
  simp only [BitVec.extractLsb'_toNat, Nat.shiftRight_eq_div_pow]
  omega

theorem headerByte_tag (op : Operation) : (headerByte op 2).toNat + 256 * (headerByte op 3).toNat =
    4096 * op.tag.entry.toNat + op.tag.epoch.toNat :=
  (littleEndian_toNat op.tag.word).trans (toNat_append_eq op.tag.entry op.tag.epoch)

theorem headerByte_sequence (op : Operation) : (headerByte op 6).toNat + 256 * (headerByte op 7).toNat =
    (op.mailboxSequence.getD 0).toNat :=
  littleEndian_toNat _

/-- Settles O42: a run of positions in one word, the buffer's or memory's bytes in their places, and a slot's payload,
padding and header. -/
theorem cyclesAndSlotWriteOrder : Obligations.CyclesAndSlotWriteOrder := by
  unfold Obligations.CyclesAndSlotWriteOrder
  refine ⟨fun j => ⟨fun k => mem_cyclePositions, rfl, fun k => cyclePositions_word, cycleLength_plain,
      byteAddress_plain, fun slot => cycleLength_slot⟩,
    fun s j => ⟨rfl, fun b k hslot hb => ?_, fun n data m => placeBytes_getElem data m j⟩, ?_⟩
  · rw [jobByte_plain hslot, hb, bufferByte_eq]
  · intro s j k op slot len sequence hslot hown hop hlen hfits hseq
    have header := jobByte_header hslot hown hop
    refine ⟨fun p => byteAddress_data hslot, fun p hp _ => byteAddress_header hslot hp, fun b p hb hp => ?_,
      fun p => jobByte_padding hslot hown hop hlen, ?length, ?sender, ?tag, header 4, header 5, ?sequence⟩
    · rw [jobByte_payload hslot hown hop hlen hp p.isLt, hb, bufferByte_eq]
    case length => rw [header 0, headerByte, hlen]; rfl
    case sender =>
      have hr := op.requester.isLt
      rw [header 1, headerByte, BitVec.toNat_setWidth]
      omega
    case tag => rw [header 2, header 3]; exact headerByte_tag op
    case sequence => rw [header 6, header 7, headerByte_sequence, hseq, Option.getD_some]

end Sys2Proof.Machine
end

section
/-! MBOX_CONSUME: what one on an OPEN or PARKED entry makes of its arguments, after the checks that it shares with the
other window commands (R4, R56). -/

namespace Sys2Proof.Machine

/-- A FREE or CLOSING entry serves no request, so neither WIN_CLOSE, WIN_GRANTS nor MBOX_CONSUME is taken on it. -/
theorem serving_eq_false {st : WindowState} (h : st = .free ∨ st = .closing) : st.serving = false := by
  obtain rfl | rfl := h <;> rfl

/-- On an OPEN or PARKED entry the kind and the count decide whether slots go back from the head (R56). -/
theorem mboxConsume_taken {s : State} (hr : Ready s) {i : Fin 32} (hi : argWindow s = i.val)
    (hst : s.windows[i].state.serving = true) : exec .mboxConsume s = .next
      (if s.windows[i].kind = .mailbox ∧ 1 ≤ s.args[1].toNat ∧ s.args[1].toNat ≤ s.windows[i].committed then
        (s.answered 7 .done).setWindow i
          { s.windows[i] with
            head := (s.windows[i].head + s.args[1].toNat) % s.windows[i].slotCount
            committed := s.windows[i].committed - s.args[1].toNat }
      else s.answered 7 .badArg) := by
  refine congrArg _ ((takeCommand_window_taken hr hi hst 7 _).trans ?_)
  by_cases hc : s.windows[i].kind = .mailbox ∧ 1 ≤ s.args[1].toNat ∧ s.args[1].toNat ≤ s.windows[i].committed
  · simp only [if_pos hc]; rfl
  · simp only [if_neg hc]; rfl

/-- Settles O9: the window argument and the entry's state are refused as for every window command, and the kind and the
count decide the rest. -/
theorem mboxConsumeMovesHead : Obligations.MboxConsumeMovesHead := by
  unfold Obligations.MboxConsumeMovesHead
  refine ⟨fun s hr => ⟨fun harg => ?badWindow, fun i hi => ⟨fun hst => ?wrongState, fun hst =>
    ⟨fun hbad => ?badArg, fun hkind hlow hhigh => ?done⟩⟩⟩, fun s hheld hrun => ?notReady⟩
  case badWindow => exact congrArg _ (takeCommand_window_badArg hr harg _ _ _)
  case wrongState => exact congrArg _ (takeCommand_window_wrongState hr hi (serving_eq_false hst) _ _)
  case badArg =>
    rw [mboxConsume_taken hr hi ((serving_iff _).mpr hst), if_neg]
    rintro ⟨hkind, hlow, hhigh⟩
    obtain hmem | hcount := hbad
    · rw [hmem] at hkind; cases hkind
    · omega
  case done => rw [mboxConsume_taken hr hi ((serving_iff _).mpr hst), if_pos ⟨hkind, hlow, hhigh⟩]
  case notReady => exact congrArg _ (takeCommand_notReady hheld hrun _ _)

end Sys2Proof.Machine
end

section
/-! The laws of a channel record (R65, R68, R79, R198), operation by operation: each of the Channel Unit's changes to a
record keeps them, and no event but those touches a record. -/

namespace Sys2Proof.Machine

/-! ### One record replaced -/

/-- A record replaced by one that obeys the laws where the old one did. -/
theorem channelInv_setChannel {s : State} {c : Fin 8} {r : Channel} (hr : ChannelOk c s.channels[c] → ChannelOk c r)
    (h : ChannelInv s) : ChannelInv (s.setChannel c r) := by
  intro d
  by_cases hd : c = d
  · subst hd
    rw [setChannel_get_self]
    exact hr (h c)
  · rw [setChannel_get_other _ _ _ _ hd]
    exact h d

/-- The laws rest on the channel records alone. -/
theorem channelInv_congr {s t : State} (hch : t.channels = s.channels) (h : ChannelInv s) : ChannelInv t := by
  intro c
  rw [hch]
  exact h c

/-! ### The record after each change -/

/-- CH_LOAD's checks, in the words of R68. -/
theorem loadAccepted_iff (own : Station) (c : Fin 8) (a : LoadArgs) : loadAccepted own c a = true ↔
    a.direction ≤ 1 ∧ a.target ≤ 31 ∧ a.target ≠ own.toNat ∧ a.window ≤ 31 ∧ a.remote ≤ 16777215 ∧
    a.local' ≤ 16777215 ∧ a.count ≤ 16777216 ∧ (a.count = 0 → a.signalPresent = true) ∧ 1 ≤ a.frameSize ∧
    a.frameSize ≤ 64 ∧ 1 ≤ a.depth ∧ a.depth ≤ 4 ∧ (a.pacing = true → c.val ≤ 3) ∧
    (a.mailbox = true → a.direction ≠ 1) ∧ a.local' + a.count ≤ 16777216 ∧ a.remote + a.count ≤ 16777216 := by
  have hsig : ¬a.count = 0 ∨ a.signalPresent = true ↔ (a.count = 0 → a.signalPresent = true) := imp_iff_not_or.symm
  have hpace : a.pacing = false ∨ c.val ≤ 3 ↔ (a.pacing = true → c.val ≤ 3) := by cases a.pacing <;> simp
  have hmail : (a.mailbox && decide (a.direction = 1)) = false ↔ (a.mailbox = true → a.direction ≠ 1) := by
    cases a.mailbox <;> simp
  simp only [loadAccepted, Bool.and_eq_true, Bool.or_eq_true, Bool.not_eq_true', decide_eq_true_eq, hpace, hmail, hsig,
    ne_eq, and_assoc]
  simp only [Config.memorySize, Nat.lt_succ_iff]

/-- Arguments that pass every check fill a lawful record (R68, R69). -/
theorem channelOk_loaded {own : Station} {c : Fin 8} {a : LoadArgs} (h : loadAccepted own c a = true) :
    ChannelOk c (loadedChannel a) := by
  obtain ⟨hdir, -, -, -, hrem, hloc, hcount, hsig, hf1, hf64, hd1, hd4, hpace, hmail, hl, hr⟩ :=
    (loadAccepted_iff own c a).mp h
  have hdepth : (if a.mailbox = true then 1 else a.depth) ≤ 4 ∧ 1 ≤ (if a.mailbox = true then 1 else a.depth) := by
    split <;> omega
  refine ⟨le_refl _, hr, hl, rfl, rfl, hf64, hdepth.1, hpace, fun hm => ⟨if_pos hm, if_pos ?_⟩,
    fun _ => ⟨hf1, hdepth.2, fun h0 => ?_⟩, fun _ => rfl, ?_⟩
  · have := hmail hm
    omega
  · have h0' : a.count = 0 := h0
    simp [loadedChannel, hsig h0']
  · simp [loadedChannel]

section
variable {c : Fin 8} {r : Channel} (h : ChannelOk c r)
include h

/-- A READY record starts its pass whole (R70). -/
theorem channelOk_started (hst : r.state = .ready) :
    ChannelOk c { r with state := if r.initialCount = 0 then .signalling else .running } := by
  obtain ⟨h1, h2, h3, h4, h5, h6, h7, h8, h9, hset, hready, -, -, -, hfault⟩ := h
  have hfull := hready hst
  obtain ⟨hf, hd, hsig⟩ := hset (by rw [hst]; decide)
  have hnone : r.faultCode = .none := by simpa [hst] using hfault
  refine ⟨h1, h2, h3, h4, h5, h6, h7, h8, h9, fun _ => ⟨hf, hd, hsig⟩, ?_⟩
  by_cases h0 : r.initialCount = 0
  · simp [h0, hfull, hsig h0, hnone]
  · simp [h0, hfull, hnone]

/-- A halt or an abort holds a fault code and keeps the pass where it stands (R89, R92). -/
theorem channelOk_faulting {r' : Channel} {st : ChannelState} {code : FaultCode}
    (hst : st = .halting ∨ st = .faulted) (hcode : code ≠ .none) (hidle : r.state ≠ .idle)
    (hr : r' = { r with state := st, faultCode := code, faultOffset := r'.faultOffset
                        faultAtSignal := r'.faultAtSignal, live := r'.live }) : ChannelOk c r' := by
  obtain ⟨h1, h2, h3, h4, h5, h6, h7, h8, h9, hset, -, -, -, -, -⟩ := h
  rw [hr]
  refine ⟨h1, h2, h3, h4, h5, h6, h7, h8, h9, fun _ => hset hidle, ?_⟩
  rcases hst with rfl | rfl <;> simp [hcode]

/-- CH_CLEAR takes the fault fields with it (R71). -/
theorem channelOk_toIdle :
    ChannelOk c { r with state := .idle, faultCode := .none, faultOffset := 0, faultAtSignal := false } := by
  obtain ⟨h1, h2, h3, h4, h5, h6, h7, h8, h9, -⟩ := h
  refine ⟨h1, h2, h3, h4, h5, h6, h7, h8, h9, ?_⟩
  simp

/-- A formed request moves its bytes from remaining to both current values (R76, R79). -/
theorem channelOk_afterFormation (hst : r.state = .running) :
    ChannelOk c r.afterFormation := by
  obtain ⟨h1, h2, h3, h4, h5, h6, h7, h8, h9, hset, -, -, -, -, hfault⟩ := h
  have hnone : r.faultCode = .none := by simpa [hst] using hfault
  have hlen : r.nextLength ≤ r.remaining := Nat.min_le_right _ _
  have hrest := hset (by rw [hst]; decide)
  refine ⟨by dsimp only [Channel.afterFormation]; omega, h2, h3, by dsimp only [Channel.afterFormation]; omega,
    by dsimp only [Channel.afterFormation]; omega, h6, h7, h8, h9, fun _ => hrest, ?_⟩
  by_cases h0 : r.remaining - r.nextLength = 0
  · simp [Channel.afterFormation, h0, hnone]
  · simp [Channel.afterFormation, h0, hst, hnone]

/-- A PACE input arms a RUNNING record, and sends one loaded with count 0 to its signal (R81, R87). -/
theorem channelOk_afterAssertion : ChannelOk c r.afterAssertion := by
  unfold Channel.afterAssertion
  split
  case isFalse => exact h
  case isTrue hc =>
    obtain ⟨-, hst, -⟩ := hc
    obtain ⟨h1, h2, h3, h4, h5, h6, h7, h8, h9, hset, -, hrun, -, -, hfault⟩ := h
    have hnone : r.faultCode = .none := by simpa [hst] using hfault
    have hrest := hset (by rw [hst]; decide)
    refine ⟨h1, h2, h3, h4, h5, h6, h7, h8, h9, fun _ => hrest, ?_⟩
    by_cases h0 : r.initialCount = 0
    · have hzero : r.remaining = 0 := by omega
      simp [h0, hrest.2.2 h0, hnone, hzero]
    · simpa [h0, hnone] using hrun hst

/-- The last live entry of a FINISHING pass calls for its signal (R83). -/
theorem channelOk_toSignalling (hst : r.state = .finishing) (hsig : r.signal.isSome = true) :
    ChannelOk c { r with live := 0, state := .signalling } := by
  obtain ⟨h1, h2, h3, h4, h5, h6, h7, h8, h9, hset, -, -, hzero, -, hfault⟩ := h
  have hnone : r.faultCode = .none := by simpa [hst] using hfault
  refine ⟨h1, h2, h3, h4, h5, h6, h7, h8, h9, fun _ => hset (by rw [hst]; decide), ?_⟩
  simp [hsig, hnone, hzero (.inl hst)]

/-- A pass that ends is DONE with nothing remaining, or reloaded whole (R85, R86). -/
theorem channelOk_passEnded (hst : r.state = .finishing ∨ r.state = .signalling) : ChannelOk c (passEnded r) := by
  obtain ⟨h1, h2, h3, h4, h5, h6, h7, h8, h9, hset, -, -, hzero, -, hfault⟩ := h
  have hidle : r.state ≠ .idle := by rcases hst with e | e <;> rw [e] <;> decide
  have hnone : r.faultCode = .none := by rcases hst with e | e <;> simpa [e] using hfault
  unfold passEnded
  split
  · refine ⟨le_refl _, h2, h3, rfl, rfl, h6, h7, h8, h9, fun _ => hset hidle, ?_⟩
    cases r.paced <;> simp [hnone]
  · refine ⟨h1, h2, h3, h4, h5, h6, h7, h8, h9, fun _ => hset hidle, ?_⟩
    simp [hnone, hzero (hst.elim .inl fun e => .inr (.inl e))]

/-- A halt that has settled is FAULTED with the code it halted with (R91). -/
theorem channelOk_settled (hst : r.state = .halting) : ChannelOk c { r with state := .faulted } := by
  refine channelOk_faulting h (.inr rfl) ?_ (by rw [hst]; decide) rfl
  obtain ⟨-, -, -, -, -, -, -, -, -, -, -, -, -, -, hfault⟩ := h
  exact hfault.mpr (.inl hst)

end

/-! ### The operations that touch a record -/

@[simp] theorem releaseEntries_channels (s : State) (f : Fin 16 → Release) :
    (s.releaseEntries f).channels = s.channels := by
  unfold State.releaseEntries; rfl

section
variable {s : State} {c : Fin 8} (h : ChannelInv s)
include h

theorem lowerLive_channelInv : ChannelInv (s.lowerLive c) := channelInv_setChannel id h

theorem settleHalting_channelInv : ChannelInv (s.settleHalting c) := by
  unfold State.settleHalting
  split
  case isFalse => exact h
  case isTrue hst => exact channelInv_setChannel (fun hc => channelOk_settled hc hst.1) h

/-- The end of a pass of a FINISHING or SIGNALLING channel. -/
theorem lowerLive_endOfPass_channelInv (hst : s.channels[c].state = .finishing ∨ s.channels[c].state = .signalling) :
    ChannelInv ((s.lowerLive c).endOfPass c) := by
  have he : (s.lowerLive c).endOfPass c =
      (s.setChannel c (passEnded s.channels[c])).post (.channelEnd c s.channels[c].reload) := by
    cases hr : s.channels[c.val].reload <;> simp [State.lowerLive, State.endOfPass, passEnded, State.setChannel, hr]
  rw [he]
  exact channelInv_setChannel (fun hc => channelOk_passEnded hc hst) h

theorem reportComplete_channelInv : ChannelInv (s.reportComplete c) := by
  unfold State.reportComplete
  split
  case h_1 hst =>
    split
    · split
      · rename_i hsig
        exact channelInv_setChannel (fun hc => channelOk_toSignalling hc hst hsig) h
      · exact lowerLive_endOfPass_channelInv h (.inl hst)
    · exact lowerLive_channelInv h
  case h_2 hst => exact lowerLive_endOfPass_channelInv h (.inr hst)
  case h_3 => exact settleHalting_channelInv (lowerLive_channelInv h)
  all_goals exact lowerLive_channelInv h

theorem haltChannel_channelInv {code : FaultCode} (hcode : code ≠ .none) (hidle : s.channels[c].state ≠ .idle)
    (offset : Nat) (atSignal : Bool) : ChannelInv (s.haltChannel c code offset atSignal) :=
  channelInv_setChannel
    (fun hc => by
      rw [releaseEntries_channels] at hc
      exact channelOk_faulting hc (.inl rfl) hcode hidle rfl)
    (channelInv_congr (releaseEntries_channels s _) h)

theorem reportFailure_channelInv {code : FaultCode} (hcode : code ≠ .none) (offset : Nat) (atSignal : Bool) :
    ChannelInv (s.reportFailure c code offset atSignal) := by
  have hhalt : s.channels[c].state ≠ .idle →
      ChannelInv ((s.haltChannel c code offset atSignal).settleHalting c) := fun hst =>
    settleHalting_channelInv (haltChannel_channelInv h hcode hst offset atSignal)
  unfold State.reportFailure
  split
  case h_1 hst => exact hhalt (by rw [hst]; decide)
  case h_2 hst => exact hhalt (by rw [hst]; decide)
  case h_3 hst => exact hhalt (by rw [hst]; decide)
  case h_4 => exact settleHalting_channelInv (lowerLive_channelInv h)
  all_goals exact lowerLive_channelInv h

end

section
variable {s : State} (h : ChannelInv s)
include h

theorem freeEntry_channelInv (i : Fin 16) : ChannelInv (s.freeEntry i) :=
  channelInv_congr (entryFreed_channels s i) h

theorem completeEntry_channelInv (i : Fin 16) : ChannelInv (s.completeEntry i) := by
  unfold State.completeEntry
  split
  · exact freeEntry_channelInv h i
  · exact reportComplete_channelInv (freeEntry_channelInv h i)

theorem failEntry_channelInv (i : Fin 16) {code : FaultCode} (hcode : code ≠ .none) :
    ChannelInv (s.failEntry i code) := by
  unfold State.failEntry
  split
  · exact freeEntry_channelInv h i
  · exact reportFailure_channelInv (freeEntry_channelInv h i) hcode _ _

theorem dropEntry_channelInv (i : Fin 16) : ChannelInv (s.dropEntry i) := by
  unfold State.dropEntry
  split
  · exact freeEntry_channelInv h i
  · exact settleHalting_channelInv (lowerLive_channelInv (freeEntry_channelInv h i))

theorem retryEntry_channelInv (i : Fin 16) : ChannelInv (s.retryEntry i) := by
  unfold State.retryEntry
  split
  · split
    · exact dropEntry_channelInv h i
    · exact h
  · exact failEntry_channelInv h i (by decide)

theorem holdEntry_channelInv (i : Fin 16) : ChannelInv (s.holdEntry i) := by
  unfold State.holdEntry
  split
  · split
    · exact dropEntry_channelInv h i
    · exact h
  · exact failEntry_channelInv h i (by decide)

theorem entrySent_channelInv (i : Fin 16) (taken : Bool) : ChannelInv (s.entrySent i taken) := by
  unfold State.entrySent
  split
  · exact freeEntry_channelInv h i
  · split
    · exact h
    · exact retryEntry_channelInv h i

theorem entryClashed_channelInv (i : Fin 16) : ChannelInv (s.entryClashed i) := by
  unfold State.entryClashed
  split
  · exact freeEntry_channelInv h i
  · split
    · exact dropEntry_channelInv h i
    · exact h

theorem entryJobEnd_channelInv (i : Fin 16) (faulted : Bool) : ChannelInv (s.entryJobEnd i faulted) := by
  unfold State.entryJobEnd
  split
  case h_1 => exact freeEntry_channelInv h i
  case h_2 =>
    split
    · exact failEntry_channelInv h i (by decide)
    · split
      · exact dropEntry_channelInv h i
      · exact h
  case h_3 =>
    split
    · exact failEntry_channelInv h i (by decide)
    · exact completeEntry_channelInv h i
  all_goals exact h

theorem settleDone_channelInv (i : Fin 16) (o : DoneOutcome) : ChannelInv (s.settleDone i o) := by
  cases o with
  | ok => exact completeEntry_channelInv h i
  | absent => exact failEntry_channelInv h i (by decide)
  | denied => exact failEntry_channelInv h i (by decide)
  | range => exact failEntry_channelInv h i (by decide)
  | parked => exact holdEntry_channelInv h i
  | full => exact holdEntry_channelInv h i
  | fault => exact failEntry_channelInv h i (by decide)

end

/-- Queueing a requester job leaves the records alone. -/
theorem queueRequester_channels (s : State) (j : Job) : (s.queueRequester j).channels = s.channels := by
  obtain ⟨e, he⟩ := queueRequester_eq s j
  rw [he]
  rfl

theorem takeAnswer_channelInv {s : State} (h : ChannelInv s) (a : Answer) : ChannelInv (s.takeAnswer a) := by
  unfold State.takeAnswer
  split
  case isFalse => exact h
  case isTrue =>
    have hun : ∀ i, ChannelInv (s.unqueue i) := fun _ => h
    cases a with
    | done t o => exact settleDone_channelInv (hun _) _ o
    | data t p =>
      refine channelInv_congr ((queueRequester_channels _ _).trans ?_) (hun (tagEntry t))
      rw [State.setEntry_channels]
      cases ((s.unqueue (tagEntry t)).entries[tagEntry t]).buffer <;> rfl

theorem takeFrame_channelInv {s : State} (h : ChannelInv s) (f : Frame) : ChannelInv (s.takeFrame f).1 := by
  unfold State.takeFrame
  split
  · split
    · exact channelInv_congr (ResponderFrame.takeRequest s _).channels h
    · exact takeAnswer_channelInv h _
    · exact h
  · exact h

theorem launch_channels (s : State) (i : Fin 16) (e : Entry) : (s.launch i e).channels = s.channels := by
  unfold State.launch
  split
  · exact queueRequester_channels s _
  all_goals rfl

theorem formData_channels (s : State) (c : Fin 8) (i : Fin 16) :
    (s.formData c i).channels = s.channels.set c s.channels[c].afterFormation := by
  unfold State.formData
  rw [launch_channels]
  cases freeBuffer s <;> rfl

theorem formSignal_channels (s : State) (c : Fin 8) (i : Fin 16) :
    (s.formSignal c i).channels = s.channels.set c { s.channels[c] with live := s.channels[c].live + 1 } :=
  launch_channels _ _ _

end Sys2Proof.Machine
end

section
/-! The requester side's predicate entry by entry: what an event leaves of an entry's law that it does not touch, and what
a release of several entries leaves of the laws and of the counts. -/

namespace Sys2Proof.Machine

/-! ### One entry's law (R80, R97, R102, R116, R117) -/

/-- What an entry's state says of its owner, its place in the Request Queue, its timer, its job and the frame in hand. -/
def EntryLaws (s : State) (i : Fin 16) : Prop :=
  (s.entries[i].owner = none ↔ s.entries[i].state = .free ∨ s.entries[i].state = .releasing) ∧
  (i ∈ s.requestQueue ↔ s.entries[i].state = .queued) ∧ TimerOk s.entries[i] ∧ EntryOk s i

theorem requestsOk_iff (s : State) : RequestsOk s ↔
    (∀ i, EntryLaws s i) ∧ (∀ c : Fin 8, s.channels[c].live = ownedCount s c) ∧
    (∀ c : Fin 8, LiveOk s.channels[c]) ∧ s.requestQueue.Nodup := by
  constructor
  · rintro ⟨howner, hcount, hlive, hnodup, hqueue, htimer, hentry⟩
    exact ⟨fun i => ⟨howner i, hqueue i, htimer i, hentry i⟩, hcount, hlive, hnodup⟩
  · rintro ⟨hlaws, hcount, hlive, hnodup⟩
    exact ⟨fun i => (hlaws i).1, hcount, hlive, hnodup, fun i => (hlaws i).2.1, fun i => (hlaws i).2.2.1,
      fun i => (hlaws i).2.2.2⟩

/-- What an entry's state says of its job and of the frame in hand, beside the tables they stand in. -/
def PlaceOk (st : EntryState) (listed : Nat) (started hand : Bool) (line : LineState) : Prop :=
  match st with
  | .staging => listed + started.toNat = 1 ∧ hand = false
  | .landing => listed + started.toNat = 1 ∧ hand = false
  | .releasing => listed = 0 ∧ started = !hand
  | .queued => listed = 0 ∧ started = false ∧ (hand = true → line = .contending)
  | .sending => listed = 0 ∧ started = false ∧ hand = true ∧ line = .sending
  | .free => listed = 0 ∧ started = false ∧ hand = false
  | .sent => listed = 0 ∧ started = false ∧ hand = false
  | .holding => listed = 0 ∧ started = false ∧ hand = false

theorem entryOk_iff (s : State) (i : Fin 16) : EntryOk s i ↔
    PlaceOk s.entries[i].state (jobsListed s i) (jobStarted s i) (inHand s i) s.line.state := by
  unfold EntryOk PlaceOk
  cases s.entries[i].state <;> exact Iff.rfl

/-- An entry without a job that is not in hand, in a state that calls for neither. -/
theorem placeOk_idle {st : EntryState} (h : st = .free ∨ st = .sent ∨ st = .holding ∨ st = .queued)
    (line : LineState) : PlaceOk st 0 false false line := by
  rcases h with rfl | rfl | rfl | rfl <;> simp [PlaceOk]

/-! ### Jobs and the frame in hand -/

/-- How many listed jobs of an engine are the entry's. -/
def entryListed (e : Engine) (i : Fin 16) : Nat := e.requester.countP fun j => j.owner == .entry i

/-- The engine's started job is the entry's. -/
def entryStarted (e : Engine) (i : Fin 16) : Bool := e.job.map Job.owner == some (.entry i)

theorem jobsListed_eq (s : State) (i : Fin 16) : jobsListed s i = entryListed s.engine i := rfl

theorem jobStarted_eq (s : State) (i : Fin 16) : jobStarted s i = entryStarted s.engine i := rfl

/-- The jobs of entry `i` are as many, and the arbiter has at most taken them off their list. -/
def JobsStay (e e' : Engine) (i : Fin 16) : Prop :=
  entryListed e' i + (entryStarted e' i).toNat = entryListed e i + (entryStarted e i).toNat ∧
  entryListed e' i ≤ entryListed e i

theorem JobsStay.refl (e : Engine) (i : Fin 16) : JobsStay e e i := ⟨rfl, le_refl _⟩

theorem JobsStay.trans {e e' e'' : Engine} {i : Fin 16} (h : JobsStay e e' i) (g : JobsStay e' e'' i) :
    JobsStay e e'' i :=
  ⟨g.1.trans h.1, g.2.trans h.2⟩

theorem jobsStay_of_eq {e e' : Engine} (hr : e'.requester = e.requester)
    (hj : e'.job.map Job.owner = e.job.map Job.owner) (i : Fin 16) : JobsStay e e' i := by
  unfold JobsStay entryListed entryStarted
  rw [hr, hj]
  exact ⟨rfl, le_refl _⟩

/-- The frame that a line has in hand in a round or a send, by its owner. -/
def engaged (l : Line) : Option HandOwner :=
  if l.state = .contending ∨ l.state = .sending then l.hand.map Hand.owner else none

theorem inHand_iff (s : State) (i : Fin 16) : inHand s i = true ↔ engaged s.line = some (.request i) := by
  unfold inHand engaged
  split
  · rename_i h
    rcases h with h | h <;> simp [h]
  · rename_i h
    rw [not_or] at h
    simp [h.1, h.2]

theorem inHand_of_engaged {s t : State} (h : engaged t.line = engaged s.line) (i : Fin 16) : inHand t i = inHand s i := by
  rw [Bool.eq_iff_iff, inHand_iff, inHand_iff, h]

/-- Outside a round and a send nothing is in hand. -/
theorem inHand_of_none {s : State} (h : engaged s.line = none) (i : Fin 16) : inHand s i = false := by
  rw [Bool.eq_false_iff, ne_eq, inHand_iff, h]
  exact fun e => by cases e

/-- The frame in hand is one entry's alone. -/
theorem inHand_other {s : State} {i k : Fin 16} (h : engaged s.line = some (.request i)) (hk : k ≠ i) :
    inHand s k = false := by
  rw [Bool.eq_false_iff, ne_eq, inHand_iff, h]
  intro e
  cases e
  exact hk rfl

/-! ### What an event leaves of an entry that it does not touch -/

/-- Entry `i`, its place in the Request Queue, its jobs and the frame in hand stay. -/
structure EntryStays (s t : State) (i : Fin 16) : Prop where
  entry : t.entries[i] = s.entries[i]
  queue : i ∈ t.requestQueue ↔ i ∈ s.requestQueue
  jobs : JobsStay s.engine t.engine i
  hand : inHand t i = inHand s i
  line : inHand s i = true → t.line.state = s.line.state

theorem EntryStays.laws {s t : State} {i : Fin 16} (h : EntryStays s t i) (hs : EntryLaws s i) : EntryLaws t i := by
  obtain ⟨howner, hqueue, htimer, hplace⟩ := hs
  refine ⟨by rw [h.entry]; exact howner, by rw [h.queue, h.entry]; exact hqueue, by rw [h.entry]; exact htimer, ?_⟩
  obtain ⟨hsum, hle⟩ := h.jobs
  have hsame : jobsListed s i = 0 → jobsListed t i = 0 ∧ jobStarted t i = jobStarted s i := by
    intro h0
    have h0' : entryListed s.engine i = 0 := h0
    have h1 : entryListed t.engine i = 0 := by omega
    refine ⟨h1, ?_⟩
    rw [h0', h1, zero_add, zero_add] at hsum
    revert hsum
    show (jobStarted t i).toNat = (jobStarted s i).toNat → _
    cases jobStarted t i <;> cases jobStarted s i <;> simp
  rw [entryOk_iff] at hplace ⊢
  rw [h.entry, h.hand]
  cases hst : s.entries[i].state <;> rw [hst] at hplace <;> simp only [PlaceOk] at hplace ⊢
  case staging => exact ⟨hsum.trans hplace.1, hplace.2⟩
  case landing => exact ⟨hsum.trans hplace.1, hplace.2⟩
  case queued =>
    obtain ⟨hl, hj⟩ := hsame hplace.1
    exact ⟨hl, hj.trans hplace.2.1, fun hh => (h.line hh).trans (hplace.2.2 hh)⟩
  case sending =>
    obtain ⟨hl, hj⟩ := hsame hplace.1
    exact ⟨hl, hj.trans hplace.2.1, hplace.2.2.1, (h.line hplace.2.2.1).trans hplace.2.2.2⟩
  case releasing =>
    obtain ⟨hl, hj⟩ := hsame hplace.1
    exact ⟨hl, hj.trans hplace.2⟩
  all_goals
    obtain ⟨hl, hj⟩ := hsame hplace.1
    exact ⟨hl, hj.trans hplace.2.1, hplace.2.2⟩

/-- The channels, the entries and the Request Queue stay, with every entry's jobs and the frame in hand. -/
structure RequestsStay (s t : State) : Prop where
  channels : t.channels = s.channels
  entries : t.entries = s.entries
  queue : t.requestQueue = s.requestQueue
  jobs : ∀ i, JobsStay s.engine t.engine i
  hand : engaged t.line = engaged s.line
  line : engaged s.line ≠ none → t.line.state = s.line.state

namespace RequestsStay

theorem refl (s : State) : RequestsStay s s := ⟨rfl, rfl, rfl, fun _ => .refl _ _, rfl, fun _ => rfl⟩

theorem trans {s t u : State} (h : RequestsStay s t) (g : RequestsStay t u) : RequestsStay s u where
  channels := g.channels.trans h.channels
  entries := g.entries.trans h.entries
  queue := g.queue.trans h.queue
  jobs := fun i => (h.jobs i).trans (g.jobs i)
  hand := g.hand.trans h.hand
  line := fun hn => (g.line (h.hand ▸ hn)).trans (h.line hn)

theorem entry {s t : State} (h : RequestsStay s t) (i : Fin 16) : EntryStays s t i where
  entry := by rw [h.entries]
  queue := by rw [h.queue]
  jobs := h.jobs i
  hand := inHand_of_engaged h.hand i
  line := fun hh => h.line (by rw [(inHand_iff s i).mp hh]; exact Option.some_ne_none _)

theorem requests {s t : State} (h : RequestsStay s t) (hs : RequestsOk s) : RequestsOk t := by
  obtain ⟨hlaws, hcount, hlive, hnodup⟩ := (requestsOk_iff s).mp hs
  refine (requestsOk_iff t).mpr ⟨fun i => (h.entry i).laws (hlaws i), fun c => ?_, fun c => ?_, ?_⟩
  · unfold ownedCount
    rw [h.channels, h.entries]
    exact hcount c
  · rw [h.channels]; exact hlive c
  · rw [h.queue]; exact hnodup

theorem post (s : State) (n : Notice) : RequestsStay s (s.post n) :=
  ⟨rfl, rfl, rfl, fun _ => .refl _ _, rfl, fun _ => rfl⟩

/-- A responder operation under which every entry's jobs stay. -/
theorem of_responder {s t : State} (h : ResponderFrame s t) (hj : ∀ i, JobsStay s.engine t.engine i) : RequestsStay s t :=
  ⟨h.channels, h.entries, h.requestQueue, hj, by rw [h.line], fun _ => by rw [h.line]⟩

/-- The arbiter starts a job at most, and no responder job is an entry's (R152). -/
theorem selectJob {s : State} (ho : OwnersOk s.engine) : RequestsStay s s.selectJob := by
  have hjobs : ∀ i, JobsStay s.engine s.selectJob.engine i := by
    intro i
    unfold State.selectJob
    split
    case h_1 => exact .refl _ i
    case h_2 hnone =>
      split
      case h_1 j rest hr =>
        obtain ⟨k, hk⟩ := ho.1 j (hr ▸ List.mem_cons_self)
        simp [JobsStay, entryListed, entryStarted, hnone, hk]
      case h_2 j rest hr hq =>
        by_cases hj : j.owner = .entry i
        · simp [JobsStay, entryListed, entryStarted, hnone, hq, hj]
        · simp [JobsStay, entryListed, entryStarted, hnone, hq, hj]
      case h_3 => exact .refl _ i
  obtain ⟨e, he⟩ := selectJob_eq s
  rw [he] at hjobs ⊢
  exact ⟨rfl, rfl, rfl, hjobs, rfl, fun _ => rfl⟩

/-- A queued responder job is no entry's, nor is the job that the arbiter starts for it. -/
theorem queueResponder_jobs {s : State} (ho : OwnersOk s.engine) {j : Job} {k : Fin 8} (hj : j.owner = .operation k)
    (i : Fin 16) : JobsStay s.engine (s.queueResponder j).engine i := by
  have hq : OwnersOk { s.engine with responder := s.engine.responder ++ [j] } :=
    ⟨fun j' h => by
      rcases List.mem_append.mp h with h | h
      · exact ho.1 j' h
      · exact ⟨k, by rw [List.mem_singleton.mp h, hj]⟩, ho.2⟩
  exact (selectJob (s := s.setEngine { s.engine with responder := s.engine.responder ++ [j] }) hq).jobs i

theorem setLine {s : State} {l : Line} (hhand : engaged l = engaged s.line)
    (hline : engaged s.line ≠ none → l.state = s.line.state) : RequestsStay s (s.setLine l) :=
  ⟨rfl, rfl, rfl, fun _ => .refl _ _, hhand, hline⟩

/-- Outside a round and a send the line changes without a frame in hand. -/
theorem setLine_off {s : State} {l : Line} (hs : engaged s.line = none) (hl : engaged l = none) :
    RequestsStay s (s.setLine l) :=
  setLine (hl.trans hs.symm) fun h => absurd hs h

end RequestsStay

/-! ### Taking a request (R29 to R36) -/

theorem placePayload_engine (s : State) (r : Request) : (s.placePayload r).engine = s.engine := by
  unfold State.placePayload
  split
  · cases freeBuffer s <;> rfl
  · rfl

theorem serveSignal_engine (s : State) (k : Fin 8) (r : Request) : (s.serveSignal k r).engine = s.engine := by
  unfold State.serveSignal
  split
  · rfl
  · split <;> rfl

theorem touchWindow_engine (s : State) (i : Fin 32) (sender : Station) (offset : Nat) :
    (s.touchWindow i sender offset).engine = s.engine := by
  unfold State.touchWindow
  split <;> rfl

theorem serveWindow_jobs {s : State} (ho : OwnersOk s.engine) (k : Fin 8) (r : Request) (i : Fin 16) :
    JobsStay s.engine (s.serveWindow k r).engine i := by
  unfold State.serveWindow
  split
  · rw [executeRequest_engine]
    exact RequestsStay.queueResponder_jobs ho (admittedJob_owner k r _ _) i
  · have he : ((s.touchWindow r.window r.sender r.offset).answerAtOnce k r .parked).engine = s.engine :=
      touchWindow_engine s _ _ _
    rw [he]
    exact .refl _ i
  · exact .refl _ i

/-- A request is the responder side's: no entry's job moves but by the arbiter. -/
theorem takeRequest_stays {s : State} (ho : OwnersOk s.engine) (r : Request) : RequestsStay s (s.takeRequest r).1 := by
  refine .of_responder (.takeRequest s r) fun i => ?_
  have hp := placePayload_engine s r
  unfold State.takeRequest
  split
  · exact .refl _ i
  · exact .refl _ i
  · split
    · exact .refl _ i
    · exact jobsStay_of_eq (congrArg Engine.requester hp) (congrArg (fun e : Engine => e.job.map Job.owner) hp) i
  · split
    · exact .refl _ i
    · rename_i k _
      show JobsStay _ ((s.placePayload r).serveFresh k r).engine i
      unfold State.serveFresh
      split
      · rw [serveSignal_engine, hp]
        exact .refl _ i
      · have hj := serveWindow_jobs (s := s.placePayload r) (hp ▸ ho) k r i
        rwa [hp] at hj

end Sys2Proof.Machine
end

section
/-! The counts of the requester side: entries that a channel loses and gains, one by one or several at once. -/

namespace Sys2Proof.Machine

/-! ### A release of several entries (R89, R93, R134) -/

/-- What a release of entries of channel `c` may do with each: it takes entries of that channel alone, frees none with
a started job or in hand, and makes RELEASING one with exactly one of the two (R117). -/
structure Releases (s : State) (c : Fin 8) (f : Fin 16 → Release) : Prop where
  owned : ∀ i, f i ≠ .keep → s.entries[i].owner = some c
  free : ∀ i, f i = .free → jobStarted s i = false ∧ inHand s i = false
  releasing : ∀ i, f i = .releasing → jobStarted s i = !inHand s i

@[simp] theorem releaseEntries_line (s : State) (f : Fin 16 → Release) : (s.releaseEntries f).line = s.line :=
  (RequesterFrame.releaseEntries s f).line

@[simp] theorem releaseEntries_engine (s : State) (f : Fin 16 → Release) :
    (s.releaseEntries f).engine = { s.engine with requester := s.engine.requester.filter (Job.keptBy f) } := by
  unfold State.releaseEntries; rfl

theorem releaseEntries_requestQueue (s : State) (f : Fin 16 → Release) :
    (s.releaseEntries f).requestQueue = s.requestQueue.filter fun i => f i == .keep := by
  unfold State.releaseEntries; rfl

theorem entryListed_filter (e : Engine) (p : Job → Bool) (i : Fin 16) (h : ∀ j, j.owner = .entry i → p j = true) :
    entryListed { e with requester := e.requester.filter p } i = entryListed e i := by
  unfold entryListed
  rw [List.countP_filter]
  refine List.countP_congr fun j _ => ?_
  by_cases hj : j.owner = .entry i
  · simp [hj, h j hj]
  · simp [hj]

theorem entryListed_filter_out (e : Engine) (p : Job → Bool) (i : Fin 16) (h : ∀ j, j.owner = .entry i → p j = false) :
    entryListed { e with requester := e.requester.filter p } i = 0 := by
  unfold entryListed
  rw [List.countP_filter, List.countP_eq_zero]
  intro j _
  by_cases hj : j.owner = .entry i
  · simp [h j hj]
  · simp [hj]

/-- A released entry's law, by what the release does with it. -/
theorem releaseEntries_laws {s : State} {c : Fin 8} {f : Fin 16 → Release} (hf : Releases s c f) {i : Fin 16}
    (h : EntryLaws s i) : EntryLaws (s.releaseEntries f) i := by
  have hentry := releaseEntries_entry s f i
  have hqueue := releaseEntries_queue s f i
  have hgone : f i ≠ .keep → jobsListed (s.releaseEntries f) i = 0 := by
    intro hk
    rw [jobsListed_eq, releaseEntries_engine]
    exact entryListed_filter_out _ _ i fun j hj => by simp [Job.keptBy, hj, hk]
  have hhand : inHand (s.releaseEntries f) i = inHand s i := inHand_of_engaged (by rw [releaseEntries_line]) i
  have hstarted : jobStarted (s.releaseEntries f) i = jobStarted s i := by
    rw [jobStarted_eq, jobStarted_eq, releaseEntries_engine]
    rfl
  cases hfi : f i with
  | keep =>
    have hkept : entryListed (s.releaseEntries f).engine i = entryListed s.engine i := by
      rw [releaseEntries_engine]
      exact entryListed_filter _ _ i fun j hj => by simp [Job.keptBy, hj, hfi]
    have hjobs : JobsStay s.engine (s.releaseEntries f).engine i :=
      ⟨by rw [hkept, ← jobStarted_eq, ← jobStarted_eq, hstarted], hkept.le⟩
    have hstays : EntryStays s (s.releaseEntries f) i :=
      { entry := by rw [hentry, hfi]; rfl
        queue := by simp [hqueue, hfi]
        jobs := hjobs
        hand := hhand
        line := fun _ => by rw [releaseEntries_line] }
    exact hstays.laws h
  | free =>
    obtain ⟨hs, hh⟩ := hf.free i hfi
    rw [hfi] at hentry
    have hlisted := hgone (by rw [hfi]; decide)
    unfold EntryLaws
    rw [entryOk_iff, hqueue, hentry, hlisted, hstarted, hhand, hs, hh, hfi]
    exact ⟨iff_of_true rfl (.inl rfl), iff_of_false nofun nofun, ⟨nofun, nofun⟩, placeOk_idle (.inl rfl) _⟩
  | releasing =>
    have hr := hf.releasing i hfi
    rw [hfi] at hentry
    have hlisted := hgone (by rw [hfi]; decide)
    unfold EntryLaws
    rw [entryOk_iff, hqueue, hentry, hlisted, hstarted, hhand, hfi]
    exact ⟨iff_of_true rfl (.inr rfl), iff_of_false nofun nofun, ⟨nofun, nofun⟩, rfl, hr⟩

/-! ### Counts (R80) -/

/-- A count whose every place falls to one of two counts is their sum. -/
theorem countP_eq_add {α : Type} {p q r : α → Bool} : ∀ {l : List α},
    (∀ a, (p a).toNat = (q a).toNat + (r a).toNat) → l.countP p = l.countP q + l.countP r
  | [], _ => rfl
  | a :: rest, h => by
    have ha := h a
    have hr := countP_eq_add (l := rest) h
    simp only [List.countP_cons]
    cases hp : p a <;> cases hq : q a <;> cases hr' : r a <;> simp [hp, hq, hr'] at ha ⊢ <;> omega

/-- A channel loses the entries that a release takes from it, and no other channel loses one. -/
theorem ownedCount_releaseEntries {s : State} {c : Fin 8} {f : Fin 16 → Release} (hf : Releases s c f) (d : Fin 8) :
    ownedCount s d = ownedCount (s.releaseEntries f) d + if d = c then releasedCount f else 0 := by
  have howner : ∀ i : Fin 16, ((s.releaseEntries f).entries[i].owner == some d) =
      (f i == .keep && s.entries[i].owner == some d) := by
    intro i
    rw [releaseEntries_entry]
    cases f i <;> simp [Entry.afterRelease, Entry.freed, Entry.freeWith, Entry.released]
  unfold ownedCount
  simp only [howner]
  split
  · rename_i hd
    subst hd
    refine countP_eq_add fun i => ?_
    by_cases hk : f i = .keep
    · simp [hk]
    · have ho : s.entries[i.val].owner = some d := hf.owned i hk
      simp [beq_false_of_ne hk, bne_iff_ne.mpr hk, ho]
  · rename_i hd
    rw [add_zero]
    refine List.countP_congr fun i _ => ?_
    by_cases hk : f i = .keep
    · simp [hk]
    · have ho : s.entries[i.val].owner = some c := hf.owned i hk
      have hne : ¬c = d := fun e => hd e.symm
      simp [ho, hne]

/-- Replacing one entry moves a channel's count by what the entry's owner was and is. -/
theorem ownedCount_replaced {s t : State} {i : Fin 16} (h : ∀ k, k ≠ i → t.entries[k] = s.entries[k]) (c : Fin 8) :
    ownedCount t c + (s.entries[i].owner == some c).toNat = ownedCount s c + (t.entries[i].owner == some c).toNat :=
  countP_agree_off (p := fun k : Fin 16 => t.entries[k].owner == some c)
    (q := fun k : Fin 16 => s.entries[k].owner == some c) (List.nodup_finRange 16) (List.mem_finRange i)
    fun k hk => by rw [h k hk]

/-! ### A channel that owes -/

/-- Every entry obeys its law, and the live entries of channel `c` are `n` more than the entries it still owns: the
entries it has lost, and has not yet counted off. -/
structure Owing (s : State) (c : Fin 8) (n : Nat) : Prop where
  laws : ∀ i, EntryLaws s i
  nodup : s.requestQueue.Nodup
  live : ∀ d : Fin 8, LiveOk s.channels[d]
  others : ∀ d : Fin 8, d ≠ c → s.channels[d].live = ownedCount s d
  count : s.channels[c].live = ownedCount s c + n

theorem owing_zero_iff (s : State) (c : Fin 8) : Owing s c 0 ↔ RequestsOk s := by
  rw [requestsOk_iff]
  constructor
  · rintro ⟨hlaws, hnodup, hlive, hothers, hcount⟩
    refine ⟨hlaws, fun d => ?_, hlive, hnodup⟩
    by_cases hd : d = c
    · exact hd ▸ hcount
    · exact hothers d hd
  · rintro ⟨hlaws, hcount, hlive, hnodup⟩
    exact ⟨hlaws, hnodup, hlive, fun d _ => hcount d, hcount c⟩

theorem Owing.release {s : State} {c : Fin 8} {n : Nat} {f : Fin 16 → Release} (h : Owing s c n) (hf : Releases s c f) :
    Owing (s.releaseEntries f) c (n + releasedCount f) where
  laws := fun i => releaseEntries_laws hf (h.laws i)
  nodup := by
    rw [releaseEntries_requestQueue]
    exact h.nodup.filter _
  live := by
    rw [releaseEntries_channels]
    exact h.live
  others := fun d hd => by
    have hc := ownedCount_releaseEntries hf d
    rw [if_neg hd, add_zero] at hc
    rw [releaseEntries_channels, ← hc]
    exact h.others d hd
  count := by
    have hc := ownedCount_releaseEntries hf c
    rw [if_pos rfl] at hc
    rw [releaseEntries_channels, h.count, hc]
    omega

theorem setChannel_stays (s : State) (c : Fin 8) (r : Channel) (i : Fin 16) : EntryStays s (s.setChannel c r) i :=
  ⟨rfl, Iff.rfl, .refl _ i, rfl, fun _ => rfl⟩

/-- The channel counts off what it has lost. -/
theorem Owing.setChannel {s : State} {c : Fin 8} {n : Nat} {r : Channel} (h : Owing s c n)
    (hcount : r.live + n = s.channels[c].live) (hlive : LiveOk r) : RequestsOk (s.setChannel c r) := by
  refine (requestsOk_iff _).mpr ⟨fun i => (setChannel_stays s c r i).laws (h.laws i), fun d => ?_, fun d => ?_, h.nodup⟩
  · show (s.setChannel c r).channels[d].live = ownedCount s d
    by_cases hd : c = d
    · subst hd
      rw [setChannel_get_self]
      have := h.count
      omega
    · rw [setChannel_get_other _ _ _ _ hd]
      exact h.others d fun e => hd e.symm
  · by_cases hd : c = d
    · subst hd; rw [setChannel_get_self]; exact hlive
    · rw [setChannel_get_other _ _ _ _ hd]; exact h.live d

end Sys2Proof.Machine
end

section
/-! One entry's event: the entry is taken out of its place, and put back in another state, or freed with a report to its
owner. -/

namespace Sys2Proof.Machine

/-! ### A channel's record after a report -/

/-- What a live channel says: it owns an entry, so it is RUNNING, FINISHING, SIGNALLING or HALTING. -/
theorem liveOk_active {r : Channel} (h : LiveOk r) (hlive : 1 ≤ r.live) :
    r.state = .running ∨ r.state = .finishing ∨ r.state = .signalling ∨ r.state = .halting := by
  obtain ⟨-, -, -, hst⟩ := h
  cases hs : r.state <;> simp only [hs] at hst <;> simp <;> omega

section
variable {r : Channel} (h : LiveOk r)
include h

theorem liveOk_lowered (hst : r.state = .running ∨ (r.state = .finishing ∨ r.state = .halting) ∧ 2 ≤ r.live) :
    LiveOk { r with live := r.live - 1 } := by
  obtain ⟨hle, hzero, hdepth, hs⟩ := h
  refine ⟨(Nat.sub_le _ _).trans hle, hzero, hdepth, ?_⟩
  rcases hst with e | ⟨e | e, hlive⟩ <;> simp only [e] at hs ⊢
  · intro h0
    rw [hs h0]
  all_goals omega

/-- A pass that ends with its last live entry leaves none (R85, R86). -/
theorem liveOk_passEnded (hidle : r.state ≠ .idle) (hlive : r.live = 1) : LiveOk (passEnded r) := by
  obtain ⟨hle, hzero, hdepth, -⟩ := h
  have h1 := hdepth hidle
  unfold passEnded
  split
  · refine ⟨by dsimp only; omega, id, fun _ => h1, ?_⟩
    cases r.paced <;> simp [hlive]
  · refine ⟨by dsimp only; omega, hzero, fun _ => h1, ?_⟩
    simp [hlive]

/-- A record with no live entry, in a state that allows none. -/
theorem liveOk_none {st : ChannelState} (hidle : r.state ≠ .idle)
    (hst : st = .signalling ∨ st = .faulted) : LiveOk { r with live := 0, state := st } := by
  obtain ⟨hle, hzero, hdepth, -⟩ := h
  refine ⟨Nat.zero_le _, hzero, fun _ => hdepth hidle, ?_⟩
  rcases hst with rfl | rfl <;> simp

end

/-- A halt that goes on with live entries, or one that has none left, or an abort (R89, R91, R92). -/
theorem liveOk_faulting {r : Channel} (h : LiveOk r) (hidle : r.state ≠ .idle) {st : ChannelState} {n : Nat}
    (hst : st = .halting ∧ 1 ≤ n ∧ n ≤ r.live ∨ st = .faulted ∧ n = 0) (code : FaultCode) (offset : Nat)
    (atSignal : Bool) : LiveOk { r with
      state := st, faultCode := code, faultOffset := offset, faultAtSignal := atSignal, live := n } := by
  obtain ⟨hle, hzero, hdepth, -⟩ := h
  rcases hst with ⟨rfl, h1, hn⟩ | ⟨rfl, rfl⟩
  · exact ⟨hn.trans hle, hzero, fun _ => hdepth hidle, h1⟩
  · exact ⟨Nat.zero_le _, hzero, fun _ => hdepth hidle, rfl⟩

/-! ### An entry freed, and its owner's part -/

section
variable {s : State} {i : Fin 16} {c : Fin 8} (h : Owing (s.entryFreed i) c 1)
include h

theorem Owing.freed_live : 1 ≤ s.channels[c].live ∧ LiveOk s.channels[c] := by
  have hc := h.count
  have hl := h.live c
  rw [entryFreed_channels] at hc hl
  exact ⟨by omega, hl⟩

theorem Owing.freed_setChannel {r : Channel} (hcount : r.live + 1 = s.channels[c].live) (hlive : LiveOk r) :
    RequestsOk ((s.entryFreed i).setChannel c r) :=
  h.setChannel (by rw [entryFreed_channels]; exact hcount) hlive

/-- Under HALTING the entry counts off, and the last one faults the channel (R90, R91). -/
theorem Owing.settledInHalt (hst : s.channels[c].state = .halting) : RequestsOk (s.settledInHalt i c) := by
  obtain ⟨hlive, hok⟩ := h.freed_live
  unfold State.settledInHalt
  dsimp only
  split
  · rename_i hmore
    exact h.freed_setChannel (by dsimp only; omega) (liveOk_lowered hok (.inr ⟨.inr hst, hmore⟩))
  · exact (RequestsStay.post _ _).requests
      (h.freed_setChannel (by dsimp only; omega) (liveOk_none hok (by rw [hst]; decide) (.inr rfl)))

/-- The last live entry of a pass ends it. -/
theorem Owing.passEnded (hidle : s.channels[c].state ≠ .idle) (hone : s.channels[c].live = 1) :
    RequestsOk ((s.entryFreed i).setChannel c (passEnded s.channels[c])) := by
  refine h.freed_setChannel ?_ (liveOk_passEnded h.freed_live.2 hidle hone)
  unfold Machine.passEnded
  split <;> dsimp only <;> omega

/-- A completed entry counts off, and the last one of a pass ends it or calls for its signal (R83 to R86, R90). -/
theorem Owing.entryCompleted : RequestsOk (s.entryCompleted i c) := by
  obtain ⟨hlive, hok⟩ := h.freed_live
  unfold State.entryCompleted
  dsimp only
  split
  case h_1 hst => exact h.settledInHalt hst
  case h_2 hst =>
    have hone := hok.2.2.2
    simp only [hst] at hone
    exact (RequestsStay.post _ _).requests (h.passEnded (by rw [hst]; decide) (by omega))
  case h_3 hst =>
    have hidle : s.channels[c].state ≠ .idle := by rw [hst]; decide
    split
    · rename_i hmore
      exact h.freed_setChannel (by dsimp only; omega) (liveOk_lowered hok (.inr ⟨.inl hst, hmore⟩))
    · split
      · exact h.freed_setChannel (by dsimp only; omega) (liveOk_none hok hidle (.inl rfl))
      · exact (RequestsStay.post _ _).requests (h.passEnded hidle (by omega))
  case h_4 hhalt hsig hfin =>
    have hst : s.channels[c].state = .running :=
      (liveOk_active hok hlive).resolve_right fun hst => hst.elim hfin fun hst => hst.elim hsig hhalt
    exact h.freed_setChannel (by dsimp only; omega) (liveOk_lowered hok (.inl hst))

end

/-! ### The first final failure of a pass (R89, R91) -/

theorem jobListed_iff (s : State) (i : Fin 16) : jobListed s i = true ↔ 1 ≤ jobsListed s i := by
  unfold jobListed jobsListed
  rw [Nat.one_le_iff_ne_zero, ← Nat.pos_iff_ne_zero, List.countP_pos_iff, List.any_eq_true]

/-- The frame in hand in CONTENDING, as EntryOk has it. -/
theorem inHandContending_iff (s : State) (i : Fin 16) :
    inHandContending s i = true ↔ s.line.state = .contending ∧ inHand s i = true := by
  unfold inHandContending inHand
  by_cases hc : s.line.state = .contending
  · cases s.line.hand <;> simp [hc]
  · simp [hc]

/-- An entry's job and the frame in hand, by the state of an entry that its channel may lose. -/
theorem entryLaws_places {s : State} {i : Fin 16} (h : EntryLaws s i) :
    (s.entries[i].state = .staging ∨ s.entries[i].state = .landing →
      inHand s i = false ∧ (jobListed s i = true → jobStarted s i = false) ∧
        (jobListed s i = false → jobStarted s i = true)) ∧
    (s.entries[i].state = .queued → jobStarted s i = false ∧ inHandContending s i = inHand s i) ∧
    (s.entries[i].state = .sending → jobStarted s i = false ∧ inHand s i = true) ∧
    (s.entries[i].state = .sent ∨ s.entries[i].state = .holding → jobStarted s i = false ∧ inHand s i = false) := by
  have hplace := (entryOk_iff s i).mp h.2.2.2
  have hjobs : jobsListed s i + (jobStarted s i).toNat = 1 →
      (jobListed s i = true → jobStarted s i = false) ∧ (jobListed s i = false → jobStarted s i = true) := by
    intro hsum
    have hl := jobListed_iff s i
    cases hs : jobStarted s i <;> rw [hs] at hsum
    · exact ⟨fun _ => rfl, fun hn => absurd (hl.mpr hsum.ge) (by rw [hn]; decide)⟩
    · refine ⟨fun hp => ?_, fun _ => rfl⟩
      have := hl.mp hp
      rw [Bool.toNat_true] at hsum
      omega
  refine ⟨fun hst => ?_, fun hst => ?_, fun hst => ?_, fun hst => ?_⟩
  · rcases hst with hst | hst <;> rw [hst] at hplace <;> exact ⟨hplace.2, hjobs hplace.1⟩
  · rw [hst] at hplace
    obtain ⟨-, hs, hh⟩ := hplace
    refine ⟨hs, ?_⟩
    rw [Bool.eq_iff_iff, inHandContending_iff]
    exact ⟨fun h => h.2, fun h => ⟨hh h, h⟩⟩
  · rw [hst] at hplace
    exact ⟨hplace.2.1, hplace.2.2.1⟩
  · rcases hst with hst | hst <;> rw [hst] at hplace <;> exact ⟨hplace.2.1, hplace.2.2⟩

theorem haltRelease_free {s : State} {c : Fin 8} {i : Fin 16} (h : haltRelease s c i = .free) :
    s.entries[i].owner = some c ∧ (s.entries[i].state = .staging ∧ jobListed s i = true ∨
      s.entries[i].state = .queued ∧ inHandContending s i = false ∨ s.entries[i].state = .holding) := by
  unfold haltRelease at h
  split at h
  · refine ⟨‹_›, ?_⟩
    split at h <;> simp_all
  · cases h

theorem haltRelease_releasing {s : State} {c : Fin 8} {i : Fin 16} (h : haltRelease s c i = .releasing) :
    s.entries[i].owner = some c ∧ s.entries[i].state = .queued ∧ inHandContending s i = true := by
  unfold haltRelease at h
  split at h
  · refine ⟨‹_›, ?_⟩
    split at h <;> simp_all [ite_eq_iff]
  · cases h

/-- A halt's withdrawal (R89, step 2; R134). -/
theorem haltRelease_releases {s : State} (h : ∀ i, EntryLaws s i) (c : Fin 8) : Releases s c (haltRelease s c) where
  owned := fun i hk => by
    cases hr : haltRelease s c i with
    | keep => exact absurd hr hk
    | free => exact (haltRelease_free hr).1
    | releasing => exact (haltRelease_releasing hr).1
  free := fun i hr => by
    obtain ⟨hjob, hqueued, -, hidle⟩ := entryLaws_places (h i)
    rcases (haltRelease_free hr).2 with ⟨hst, hl⟩ | ⟨hst, hh⟩ | hst
    · obtain ⟨hhand, hs, -⟩ := hjob (.inl hst)
      exact ⟨hs hl, hhand⟩
    · obtain ⟨hs, he⟩ := hqueued hst
      exact ⟨hs, he ▸ hh⟩
    · exact hidle (.inr hst)
  releasing := fun i hr => by
    obtain ⟨-, hst, hh⟩ := haltRelease_releasing hr
    obtain ⟨hs, he⟩ := (entryLaws_places (h i)).2.1 hst
    rw [hs, ← he, hh]
    rfl

/-- A channel made HALTING settles at once where no live entry is left (R91). -/
theorem setChannel_settleHalting (s : State) (c : Fin 8) {r : Channel} (hst : r.state = .halting) :
    (s.setChannel c r).settleHalting c = if r.live = 0 then (s.setChannel c { r with state := .faulted }).post
      (.channelFault c r.faultCode r.faultOffset r.faultAtSignal) else s.setChannel c r := by
  by_cases hl : r.live = 0 <;> simp [State.settleHalting, State.setChannel, hst, hl]

/-- The first final failure: what the withdrawal takes is counted off with the failed entry (R89). -/
theorem Owing.halted {s : State} {c : Fin 8} (h : Owing s c 1) (hst : s.channels[c].state ≠ .idle) (code : FaultCode)
    (offset : Nat) (atSignal : Bool) : RequestsOk ((s.haltChannel c code offset atSignal).settleHalting c) := by
  have hgone := h.release (haltRelease_releases h.laws c)
  have hcount : ownedCount (s.releaseEntries (haltRelease s c)) c + (1 + releasedCount (haltRelease s c)) =
      s.channels[c].live := by
    rw [← hgone.count, releaseEntries_channels]
  have hok := h.live c
  unfold State.haltChannel
  rw [setChannel_settleHalting _ _ rfl]
  split
  · rename_i hzero
    dsimp only at hzero
    refine (RequestsStay.post _ _).requests ?_
    refine hgone.setChannel (r := { s.channels[c] with
      state := .faulted, faultCode := code, faultOffset := offset, faultAtSignal := atSignal
      live := s.channels[c].live - 1 - releasedCount (haltRelease s c) }) ?_
      (liveOk_faulting hok hst (.inr ⟨rfl, hzero⟩) _ _ _)
    rw [releaseEntries_channels]
    dsimp only
    omega
  · rename_i hmore
    dsimp only at hmore
    refine hgone.setChannel ?_ (liveOk_faulting hok hst (.inl ⟨rfl, ?_, ?_⟩) _ _ _)
    · rw [releaseEntries_channels]
      dsimp only
      omega
    · omega
    · omega

/-! ### An entry taken out of its place -/

/-- Entry `i` stands in no queue, has no job and is not in hand; its channel still counts it, and everything beside it
is in order. -/
structure Loose (s : State) (i : Fin 16) : Prop where
  others : ∀ k, k ≠ i → EntryLaws s k
  queue : i ∉ s.requestQueue
  listed : entryListed s.engine i = 0
  started : entryStarted s.engine i = false
  hand : inHand s i = false
  counts : ∀ c : Fin 8, s.channels[c].live = ownedCount s c
  live : ∀ c : Fin 8, LiveOk s.channels[c]
  nodup : s.requestQueue.Nodup

/-- Entry `i` is put in a place that its state calls for, under the owner it had, and the others stay. -/
theorem requestsOk_of_entry {s t : State} {i : Fin 16} (hlaws : ∀ k, k ≠ i → EntryLaws s k)
    (hcounts : ∀ c : Fin 8, s.channels[c].live = ownedCount s c) (hlive : ∀ c : Fin 8, LiveOk s.channels[c])
    (howner : t.entries[i].owner = s.entries[i].owner) (hchannels : t.channels = s.channels)
    (hothers : ∀ k, k ≠ i → EntryStays s t k) (hself : EntryLaws t i) (hnodup : t.requestQueue.Nodup) :
    RequestsOk t := by
  refine (requestsOk_iff t).mpr ⟨fun k => ?_, fun c => ?_, ?_, hnodup⟩
  · by_cases hk : k = i
    · exact hk ▸ hself
    · exact (hothers k hk).laws (hlaws k hk)
  · have hc := ownedCount_replaced (s := s) (t := t) (fun k hk => (hothers k hk).entry) c
    rw [howner] at hc
    rw [hchannels, hcounts c]
    omega
  · rw [hchannels]
    exact hlive

theorem Loose.placed {s t : State} {i : Fin 16} (h : Loose s i) (howner : t.entries[i].owner = s.entries[i].owner)
    (hchannels : t.channels = s.channels) (hothers : ∀ k, k ≠ i → EntryStays s t k) (hself : EntryLaws t i)
    (hnodup : t.requestQueue.Nodup) : RequestsOk t :=
  requestsOk_of_entry h.others h.counts h.live howner hchannels hothers hself hnodup

end Sys2Proof.Machine
end

section
/-! The ways an entry that was taken out of its place goes on: freed with a report to its owner, queued, held, sent, or
given a job. -/

namespace Sys2Proof.Machine

section
variable {s : State} {i : Fin 16} (h : Loose s i)
include h

/-- The entry replaced by one without a job that is not in hand, in the Request Queue exactly when it is QUEUED. -/
theorem Loose.replaced {t : State} {e : Entry} (hentries : t.entries = s.entries.set i e)
    (hchannels : t.channels = s.channels) (hengine : t.engine = s.engine) (hline : t.line = s.line)
    (hqueue : ∀ k, k ∈ t.requestQueue ↔ k ∈ s.requestQueue ∨ k = i ∧ e.state = .queued) (hnodup : t.requestQueue.Nodup)
    (howner : e.owner = s.entries[i].owner) (hnone : e.owner = none ↔ e.state = .free ∨ e.state = .releasing)
    (htimer : TimerOk e) (hst : e.state = .free ∨ e.state = .sent ∨ e.state = .holding ∨ e.state = .queued) :
    RequestsOk t := by
  have hself : t.entries[i] = e := by rw [hentries, getElem_set_fin, if_pos rfl]
  refine h.placed (by rw [hself, howner]) hchannels (fun k hk => ⟨?_, ?_, ?_, ?_, fun _ => by rw [hline]⟩)
    ⟨?_, ?_, ?_, ?_⟩ hnodup
  · rw [hentries, getElem_set_fin, if_neg hk.symm]
  · rw [hqueue]
    exact or_iff_left fun h => hk h.1
  · rw [hengine]
    exact .refl _ _
  · exact inHand_of_engaged (by rw [hline]) k
  · rw [hself]
    exact hnone
  · rw [hqueue, hself]
    exact ⟨fun hm => hm.elim (fun hm => absurd hm h.queue) fun hm => hm.2, fun hm => .inr ⟨rfl, hm⟩⟩
  · rw [hself]
    exact htimer
  · rw [entryOk_iff, hself, jobsListed_eq, jobStarted_eq, hengine, h.listed, h.started,
      inHand_of_engaged (s := s) (by rw [hline]) i, h.hand]
    exact placeOk_idle hst _

/-! ### Freed -/

theorem Loose.freed_laws (k : Fin 16) : EntryLaws (s.entryFreed i) k := by
  by_cases hk : k = i
  · subst hk
    have hself : (s.entryFreed k).entries[k] = Entry.freeWith s.entries[k].epoch := by
      rw [entryFreed_entries, getElem_set_fin, if_pos rfl]
    unfold EntryLaws
    rw [entryOk_iff, hself, jobsListed_eq, jobStarted_eq, entryFreed_engine, entryFreed_requestQueue, h.listed, h.started,
      inHand_of_engaged (s := s) (by rw [entryFreed_line]) k, h.hand]
    exact ⟨iff_of_true rfl (.inl rfl), iff_of_false h.queue nofun, ⟨nofun, nofun⟩, placeOk_idle (.inl rfl) _⟩
  · refine EntryStays.laws (s := s) ⟨?_, ?_, ?_, ?_, fun _ => by rw [entryFreed_line]⟩ (h.others k hk)
    · rw [entryFreed_entries, getElem_set_fin, if_neg fun e => hk e.symm]
    · rw [entryFreed_requestQueue]
    · rw [entryFreed_engine]
      exact .refl _ _
    · exact inHand_of_engaged (by rw [entryFreed_line]) k

omit h in
theorem freed_count (s : State) (i : Fin 16) (c : Fin 8) :
    ownedCount (s.entryFreed i) c + (s.entries[i].owner == some c).toNat = ownedCount s c := by
  have hc := ownedCount_replaced (s := s) (t := s.entryFreed i) (i := i) (fun k hk => by
    rw [entryFreed_entries, getElem_set_fin, if_neg hk.symm]) c
  rw [entryFreed_entries, getElem_set_fin, if_pos rfl] at hc
  exact hc

/-- Freed under an owner that counts it still. -/
theorem Loose.owing {c : Fin 8} (ho : s.entries[i].owner = some c) : Owing (s.entryFreed i) c 1 := by
  refine ⟨h.freed_laws, ?_, ?_, fun d hd => ?_, ?_⟩
  · rw [entryFreed_requestQueue]
    exact h.nodup
  · rw [entryFreed_channels]
    exact h.live
  · have hc := freed_count s i d
    have hne : (some c == some d) = false := beq_false_of_ne fun e => hd (Option.some.inj e).symm
    rw [ho, hne, Bool.toNat_false, add_zero] at hc
    rw [entryFreed_channels, hc]
    exact h.counts d
  · have hc := freed_count s i c
    rw [ho, beq_self_eq_true, Bool.toNat_true] at hc
    rw [entryFreed_channels, hc]
    exact h.counts c

/-- A RELEASING entry is freed, and no channel counts it (R117). -/
theorem Loose.freeEntry_unowned (ho : s.entries[i].owner = none) : RequestsOk (s.freeEntry i) := by
  rw [entryFreed_eq]
  refine (requestsOk_iff _).mpr ⟨h.freed_laws, fun c => ?_, ?_, ?_⟩
  · have hc := freed_count s i c
    rw [ho] at hc
    rw [entryFreed_channels, h.counts c, ← hc]
    rfl
  · rw [entryFreed_channels]
    exact h.live
  · rw [entryFreed_requestQueue]
    exact h.nodup

theorem Loose.completeEntry (ho : s.entries[i].owner ≠ none) : RequestsOk (s.completeEntry i) := by
  obtain ⟨c, hc⟩ := Option.ne_none_iff_exists'.mp ho
  rw [completeEntry_eq hc]
  exact (h.owing hc).entryCompleted

theorem Loose.failEntry (ho : s.entries[i].owner ≠ none) (code : FaultCode) : RequestsOk (s.failEntry i code) := by
  obtain ⟨c, hc⟩ := Option.ne_none_iff_exists'.mp ho
  have howing := h.owing hc
  obtain ⟨hlive, hok⟩ := howing.freed_live
  have hhalt : s.channels[c].state ≠ .idle → ∀ offset atSignal,
      RequestsOk (((s.freeEntry i).haltChannel c code offset atSignal).settleHalting c) := fun hst offset atSignal => by
    rw [entryFreed_eq]
    exact howing.halted (by rw [entryFreed_channels]; exact hst) code offset atSignal
  rcases liveOk_active hok hlive with hst | hst | hst | hst
  case inr.inr.inr =>
    rw [failEntry_halting code hc hst]
    exact howing.settledInHalt hst
  all_goals
    have hst' : (s.freeEntry i).channels[c].state = s.channels[c].state := by rw [entryFreed_eq, entryFreed_channels]
    have hne : s.channels[c].state ≠ .idle := by rw [hst]; decide
    simp only [State.failEntry, hc, State.reportFailure, hst', hst]
    exact hhalt hne _ _

/-- An entry that its HALTING owner drops (R116). -/
theorem Loose.dropEntry (hh : ownerHalting s i = true) : RequestsOk (s.dropEntry i) := by
  unfold ownerHalting at hh
  split at hh
  case h_1 => cases hh
  case h_2 c hc =>
    have hst : s.channels[c].state = .halting := beq_iff_eq.mp hh
    rw [dropEntry_halting hc hst]
    exact (h.owing hc).settledInHalt hst

/-! ### Queued, held, sent -/

theorem Loose.queueTail {e : Entry} (howner : e.owner = s.entries[i].owner) (hne : e.owner ≠ none) :
    RequestsOk (s.queueTail i e) := by
  refine h.replaced (e := { e with state := .queued, timer := .stopped }) rfl rfl rfl rfl (fun k => ?_) ?_ howner
    (iff_of_false hne nofun) ⟨nofun, nofun⟩ (.inr (.inr (.inr rfl)))
  · simp [State.queueTail]
  · exact List.nodup_append.mpr ⟨h.nodup, List.nodup_singleton i, fun a ha b hb e => by
      rw [List.mem_singleton] at hb; exact h.queue (hb ▸ e ▸ ha)⟩

theorem Loose.queueHead (hne : s.entries[i].owner ≠ none) (htimer : s.entries[i].timer = .stopped) :
    RequestsOk (s.queueHead i) := by
  refine h.replaced (e := { s.entries[i] with state := .queued }) rfl rfl rfl rfl (fun k => ?_) ?_ rfl
    (iff_of_false hne nofun) ?_ (.inr (.inr (.inr rfl)))
  · simp [State.queueHead, or_comm]
  · exact List.nodup_cons.mpr ⟨h.queue, h.nodup⟩
  · unfold TimerOk
    rw [htimer]
    exact ⟨nofun, nofun⟩

/-- The entry waits, SENT or HOLDING, with its timer. -/
theorem Loose.setEntry {e : Entry} (howner : e.owner = s.entries[i].owner) (hne : e.owner ≠ none) (htimer : TimerOk e)
    (hst : e.state = .sent ∨ e.state = .holding) : RequestsOk (s.setEntry i e) := by
  refine h.replaced (e := e) rfl rfl rfl rfl (fun k => ?_) h.nodup howner (iff_of_false hne ?_) htimer
    (hst.elim (fun e => .inr (.inl e)) fun e => .inr (.inr (.inl e)))
  · have : e.state ≠ .queued := by rcases hst with e | e <;> rw [e] <;> decide
    simp [this]
  · rcases hst with e | e <;> rw [e] <;> decide

theorem Loose.retryEntry (ho : s.entries[i].owner ≠ none) : RequestsOk (s.retryEntry i) := by
  unfold State.retryEntry
  split
  · split
    · exact h.dropEntry ‹_›
    · exact h.queueTail rfl ho
  · exact h.failEntry ho _

theorem Loose.holdEntry (ho : s.entries[i].owner ≠ none) : RequestsOk (s.holdEntry i) := by
  unfold State.holdEntry
  split
  · split
    · exact h.dropEntry ‹_›
    · exact h.setEntry rfl ho rfl (.inr rfl)
  · exact h.failEntry ho _

theorem Loose.settleDone (ho : s.entries[i].owner ≠ none) (o : DoneOutcome) : RequestsOk (s.settleDone i o) := by
  cases o with
  | ok => exact h.completeEntry ho
  | absent => exact h.failEntry ho _
  | denied => exact h.failEntry ho _
  | range => exact h.failEntry ho _
  | parked => exact h.holdEntry ho
  | full => exact h.holdEntry ho
  | fault => exact h.failEntry ho _

/-! ### Given a job -/

/-- The entry, STAGING or LANDING, with its job queued; the arbiter may start a job (R77, R111, R152). -/
theorem Loose.queueRequester (hjobs : OwnersOk s.engine) (hne : s.entries[i].owner ≠ none)
    (hst : s.entries[i].state = .staging ∨ s.entries[i].state = .landing) (htimer : s.entries[i].timer = .stopped)
    {j : Job} (hj : j.owner = .entry i) : RequestsOk (s.queueRequester j) := by
  have hq : OwnersOk { s.engine with requester := s.engine.requester ++ [j] } :=
    ⟨hjobs.1, fun j' hm => by
      rcases List.mem_append.mp hm with hm | hm
      · exact hjobs.2 j' hm
      · exact ⟨i, by rw [List.mem_singleton.mp hm, hj]⟩⟩
  have hlisted : ∀ k, entryListed { s.engine with requester := s.engine.requester ++ [j] } k =
      entryListed s.engine k + if k = i then 1 else 0 := by
    intro k
    by_cases hk : k = i
    · simp [entryListed, hj, hk]
    · have hk' : ¬i = k := fun e => hk e.symm
      simp [entryListed, hj, hk, hk']
  refine (RequestsStay.selectJob (s := s.setEngine { s.engine with requester := s.engine.requester ++ [j] }) hq).requests
    (h.placed rfl rfl (fun k hk => ⟨rfl, Iff.rfl, ⟨?_, ?_⟩, rfl, fun _ => rfl⟩) ⟨?_, ?_, ?_, ?_⟩ h.nodup)
  · rw [State.setEngine_engine, hlisted, if_neg hk]
    rfl
  · rw [State.setEngine_engine, hlisted, if_neg hk, add_zero]
  · refine iff_of_false hne ?_
    rcases hst with e | e <;> rw [State.setEngine_entries, e] <;> decide
  · refine iff_of_false h.queue ?_
    rcases hst with e | e <;> rw [State.setEngine_entries, e] <;> decide
  · rw [State.setEngine_entries]
    unfold TimerOk
    rw [htimer]
    rcases hst with e | e <;> rw [e] <;> decide
  · have hl : entryListed (s.setEngine { s.engine with requester := s.engine.requester ++ [j] }).engine i = 1 := by
      rw [State.setEngine_engine, hlisted, h.listed, if_pos rfl]
    have hs : entryStarted (s.setEngine { s.engine with requester := s.engine.requester ++ [j] }).engine i = false :=
      h.started
    have hh : inHand (s.setEngine { s.engine with requester := s.engine.requester ++ [j] }) i = false := h.hand
    rw [entryOk_iff, jobsListed_eq, jobStarted_eq, hl, hs, hh, State.setEngine_entries]
    rcases hst with e | e <;> rw [e] <;> exact ⟨rfl, rfl⟩

end

/-! ### An entry changed while it is out of its place -/

section
variable {s t : State} {i : Fin 16} {e : Entry} (h : Loose s i) (hentries : t.entries = s.entries.set i e)
  (hqueue : t.requestQueue = s.requestQueue) (hengine : t.engine = s.engine) (hline : t.line = s.line)
include h hentries hqueue hengine hline

/-- Another record of the entry, as long as the channels count it. -/
theorem Loose.recounted (hcounts : ∀ c : Fin 8, t.channels[c].live = ownedCount t c)
    (hlive : ∀ c : Fin 8, LiveOk t.channels[c]) : Loose t i where
  others := fun k hk => EntryStays.laws (s := s)
    ⟨by rw [hentries, getElem_set_fin, if_neg hk.symm], by rw [hqueue], by rw [hengine]; exact .refl _ _,
      inHand_of_engaged (by rw [hline]) k, fun _ => by rw [hline]⟩ (h.others k hk)
  queue := by rw [hqueue]; exact h.queue
  listed := by rw [hengine]; exact h.listed
  started := by rw [hengine]; exact h.started
  hand := (inHand_of_engaged (by rw [hline]) i).trans h.hand
  counts := hcounts
  live := hlive
  nodup := by rw [hqueue]; exact h.nodup

omit h hqueue hengine hline in
theorem ownedCount_set (c : Fin 8) :
    ownedCount t c + (s.entries[i].owner == some c).toNat = ownedCount s c + (e.owner == some c).toNat := by
  have hc := ownedCount_replaced (s := s) (t := t) (i := i) (fun k hk => by
    rw [hentries, getElem_set_fin, if_neg hk.symm]) c
  rwa [hentries, getElem_set_fin, if_pos rfl] at hc

/-- The entry keeps its owner. -/
theorem Loose.rewritten (hchannels : t.channels = s.channels) (howner : e.owner = s.entries[i].owner) : Loose t i := by
  refine h.recounted hentries hqueue hengine hline (fun c => ?_) (by rw [hchannels]; exact h.live)
  have hc := ownedCount_set hentries c
  rw [howner] at hc
  rw [hchannels, h.counts c]
  omega

/-- The entry is given to a channel, which counts it (R76, R80, R84). -/
theorem Loose.formed {c : Fin 8} {r : Channel} (hchannels : t.channels = s.channels.set c r)
    (hfree : s.entries[i].owner = none) (howner : e.owner = some c) (hcount : r.live = s.channels[c].live + 1)
    (hlive : LiveOk r) : Loose t i := by
  refine h.recounted hentries hqueue hengine hline (fun d => ?_) fun d => ?_
  · have hc := ownedCount_set hentries d
    rw [hfree, howner] at hc
    by_cases hd : c = d
    · subst hd
      rw [hchannels, getElem_set_fin, if_pos rfl, hcount, h.counts c]
      simpa using hc.symm
    · have hne : (some c == some d) = false := beq_false_of_ne fun e => hd (Option.some.inj e)
      rw [hne] at hc
      rw [hchannels, getElem_set_fin, if_neg hd, h.counts d]
      exact hc.symm
  · by_cases hd : c = d
    · subst hd
      rw [hchannels, getElem_set_fin, if_pos rfl]
      exact hlive
    · rw [hchannels, getElem_set_fin, if_neg hd]
      exact h.live d

end

/-! ### How an entry comes out of its place -/

section
variable {s t : State} {i : Fin 16} (h : RequestsOk s)
include h

theorem RequestsOk.laws (k : Fin 16) : EntryLaws s k := ((requestsOk_iff s).mp h).1 k

/-- Entry `i` is out of every place in `t`, and nothing else has changed. -/
theorem RequestsOk.loose (hothers : ∀ k, k ≠ i → EntryStays s t k) (howner : t.entries[i].owner = s.entries[i].owner)
    (hchannels : t.channels = s.channels) (hnodup : t.requestQueue.Nodup) (hqueue : i ∉ t.requestQueue)
    (hlisted : entryListed t.engine i = 0) (hstarted : entryStarted t.engine i = false) (hhand : inHand t i = false) :
    Loose t i := by
  obtain ⟨hlaws, hcounts, hlive, -⟩ := (requestsOk_iff s).mp h
  refine ⟨fun k hk => (hothers k hk).laws (hlaws k), hqueue, hlisted, hstarted, hhand, fun c => ?_, ?_, hnodup⟩
  · have hc := ownedCount_replaced (s := s) (t := t) (fun k hk => (hothers k hk).entry) c
    rw [howner] at hc
    rw [hchannels, hcounts c]
    omega
  · rw [hchannels]
    exact hlive

/-- An entry that waits for its timer or for a formation stands in no place. -/
theorem RequestsOk.loose_waiting
    (hst : s.entries[i].state = .free ∨ s.entries[i].state = .sent ∨ s.entries[i].state = .holding) : Loose s i := by
  obtain ⟨-, hqueue, -, hplace⟩ := h.laws i
  have hnodup := ((requestsOk_iff s).mp h).2.2.2
  rw [entryOk_iff] at hplace
  rcases hst with hst | hst | hst <;> rw [hst] at hqueue hplace <;>
    exact h.loose (fun k _ => (RequestsStay.refl s).entry k) rfl rfl hnodup (fun hm => by cases hqueue.mp hm) hplace.1
      hplace.2.1 hplace.2.2

/-- A matched entry leaves the Request Queue and its timer stops (R109). -/
theorem RequestsOk.loose_unqueue
    (hst : s.entries[i].state = .queued ∨ s.entries[i].state = .sent ∨ s.entries[i].state = .holding)
    (hhand : inHand s i = false) : Loose (s.unqueue i) i := by
  have hplace := (entryOk_iff s i).mp (h.laws i).2.2.2
  have hnodup := ((requestsOk_iff s).mp h).2.2.2
  have hjobs : entryListed s.engine i = 0 ∧ entryStarted s.engine i = false := by
    rcases hst with hst | hst | hst <;> rw [hst] at hplace <;> exact ⟨hplace.1, hplace.2.1⟩
  refine h.loose (fun k hk => ⟨setEntry_get_other _ _ _ _ hk.symm, ?_, .refl _ _, rfl, fun _ => rfl⟩) ?_ rfl
    (hnodup.filter _) ?_ hjobs.1 hjobs.2 hhand
  · simp [State.unqueue, hk]
  · rw [State.unqueue, setEntry_get_self]
  · simp [State.unqueue]

/-- The frame in hand is given up or sent to its end, and its entry is in no queue (R104, R105). -/
theorem RequestsOk.loose_hand {l : Line} (hhand : engaged s.line = some (.request i)) (hl : engaged l = none)
    (hst : s.entries[i].state = .sending ∨ s.entries[i].state = .releasing) : Loose (s.setLine l) i := by
  obtain ⟨-, hqueue, -, hplace⟩ := h.laws i
  have hnodup := ((requestsOk_iff s).mp h).2.2.2
  have hin : inHand s i = true := (inHand_iff s i).mpr hhand
  rw [entryOk_iff, hin] at hplace
  refine h.loose (fun k hk => ?_) rfl rfl hnodup ?_ ?_ ?_ (inHand_of_none hl i)
  · have hout := inHand_other hhand hk
    exact ⟨rfl, Iff.rfl, .refl _ _, (inHand_of_none hl k).trans hout.symm, fun hk => by rw [hout] at hk; cases hk⟩
  · rcases hst with hst | hst <;> rw [hst] at hqueue <;> exact fun hm => by cases hqueue.mp hm
  · rcases hst with hst | hst <;> rw [hst] at hplace <;> exact hplace.1
  · rcases hst with hst | hst <;> rw [hst] at hplace
    · exact hplace.2.1
    · exact hplace.2

/-- The engine lets a job of entry `i` go (R157). -/
theorem RequestsOk.loose_job {j : Job} (hj : s.engine.job = some j) (ho : j.owner = .entry i) :
    Loose s.releaseEngine i ∧
      (s.entries[i].state = .staging ∨ s.entries[i].state = .landing ∨ s.entries[i].state = .releasing) := by
  obtain ⟨-, hqueue, -, hplace⟩ := h.laws i
  have hnodup := ((requestsOk_iff s).mp h).2.2.2
  have hstarted : jobStarted s i = true := by simp [jobStarted, hj, ho]
  rw [entryOk_iff, hstarted] at hplace
  have hst : (s.entries[i].state = .staging ∨ s.entries[i].state = .landing ∨ s.entries[i].state = .releasing) ∧
      jobsListed s i = 0 ∧ inHand s i = false := by
    cases hst : s.entries[i].state <;> rw [hst] at hplace <;> simp [PlaceOk] at hplace <;> simp [hplace]
  obtain ⟨hstate, hlisted, hhand⟩ := hst
  refine ⟨h.loose (fun k hk => ⟨rfl, Iff.rfl, ⟨?_, le_refl _⟩, rfl, fun _ => rfl⟩) rfl rfl hnodup ?_ hlisted rfl hhand,
    hstate⟩
  · have hne : ¬i = k := fun e => hk e.symm
    simp [entryListed, entryStarted, State.releaseEngine, hj, ho, hne]
  · show i ∉ s.requestQueue
    rcases hstate with hst | hst | hst <;> rw [hst] at hqueue <;> exact fun hm => by cases hqueue.mp hm

end

end Sys2Proof.Machine
end

section
/-! The requester side's commands and reports: what each keeps of the channels' laws and of the requester side's
predicate. -/

namespace Sys2Proof.Machine

/-- The channels' laws are kept, and beside the line's predicate the requester side's. -/
structure RequesterKept (s t : State) : Prop where
  channels : ChannelInv s → ChannelInv t
  requests : LineCore s → RequestsOk s → RequestsOk t

namespace RequesterKept

theorem of_stay {s t : State} (h : RequestsStay s t) : RequesterKept s t :=
  ⟨channelInv_congr h.channels, fun _ => h.requests⟩

theorem refl (s : State) : RequesterKept s s := of_stay (.refl s)

/-- A record replaced by a lawful one with the same live entries. -/
theorem setChannel {s : State} {c : Fin 8} {r : Channel} (hok : ChannelOk c s.channels[c] → ChannelOk c r)
    (hlive : LiveOk s.channels[c] → r.live = s.channels[c].live ∧ LiveOk r) : RequesterKept s (s.setChannel c r) where
  channels := channelInv_setChannel hok
  requests := fun _ hs => by
    have howing := (owing_zero_iff s c).mpr hs
    obtain ⟨hcount, hr⟩ := hlive (howing.live c)
    exact howing.setChannel hcount hr

end RequesterKept

/-! ### The port's part of a command -/

/-- CMD and RESULT stand in no law. -/
theorem answered_stays (s : State) (code : Word) (r : Result) : RequestsStay s { s with cmd := code, result := r } :=
  ⟨rfl, rfl, rfl, fun _ => .refl _ _, rfl, fun _ => rfl⟩

theorem takeCommand_requesterKept {code : Word} {owner : State → State × Result}
    (h : ∀ u, RequesterKept u (owner u).1) (s : State) : RequesterKept s (takeCommand code owner s) := by
  unfold takeCommand
  split
  · exact .refl s
  · split
    · have hcmd := answered_stays s code s.result
      have hres := answered_stays (owner { s with cmd := code }).1 (owner { s with cmd := code }).1.cmd
        (owner { s with cmd := code }).2
      have hown := h { s with cmd := code }
      exact ⟨fun hc => channelInv_congr hres.channels (hown.channels (channelInv_congr hcmd.channels hc)),
        fun hl hs => hres.requests (hown.requests hl (hcmd.requests hs))⟩
    · exact .of_stay (answered_stays s _ _)

theorem onWindow_stays {taken : WindowState → Bool} {act : Fin 32 → WindowEntry → State → State × Result}
    (h : ∀ i w u, RequestsStay u (act i w u).1) (s : State) : RequestsStay s (onWindow taken act s).1 := by
  unfold onWindow
  split
  · split
    · exact h _ _ _
    · exact .refl s
  · exact .refl s

theorem onChannel_requesterKept {taken : ChannelState → Bool} {act : Fin 8 → Channel → State → State × Result}
    (h : ∀ c u, taken u.channels[c].state = true → RequesterKept u (act c u.channels[c] u).1) (s : State) :
    RequesterKept s (onChannel taken act s).1 := by
  unfold onChannel
  split
  · rename_i hc
    split
    · rename_i ht
      exact h ⟨argChannel s, hc⟩ s ht
    · exact .refl s
  · exact .refl s

/-- A choice of two answers leaves the requester side alone where both do. -/
theorem ite_stays {p : Prop} [Decidable p] {u : State} {a b : State × Result} (ha : RequestsStay u a.1)
    (hb : RequestsStay u b.1) : RequestsStay u (if p then a else b).1 := by
  split
  · exact ha
  · exact hb

theorem setWindow_stays (s : State) (i : Fin 32) (w : WindowEntry) : RequestsStay s (s.setWindow i w) :=
  .of_responder (.setWindow s i w) fun _ => .refl _ _

/-- The window commands are none of the requester side's. -/
theorem windowCommand_stays : ∀ owner ∈ [winOpen, winPark, winUnpark, winClose, winGrants, winQuery, mboxConsume],
    ∀ s, RequestsStay s (owner s).1 := by
  simp only [List.forall_mem_cons, List.not_mem_nil, false_implies, implies_true, and_true]
  refine ⟨?winOpen, ?winPark, ?winUnpark, ?winClose, ?winGrants, ?winQuery, ?mboxConsume⟩
  case winOpen => exact onWindow_stays fun _ _ u => ite_stays (setWindow_stays u _ _) (.refl u)
  case winPark => exact onWindow_stays fun _ _ u => ite_stays (setWindow_stays u _ _) (setWindow_stays u _ _)
  case winUnpark => exact onWindow_stays fun _ _ u => setWindow_stays u _ _
  case winClose => exact onWindow_stays fun _ _ u => ite_stays (setWindow_stays u _ _) (setWindow_stays u _ _)
  case winGrants => exact onWindow_stays fun _ _ u => setWindow_stays u _ _
  case winQuery => exact onWindow_stays fun _ _ _ => ⟨rfl, rfl, rfl, fun _ => .refl _ _, rfl, fun _ => rfl⟩
  case mboxConsume => exact onWindow_stays fun _ _ u => ite_stays (setWindow_stays u _ _) (.refl u)

/-! ### The channel commands (R67 to R72, R92) -/

theorem loadable_iff (st : ChannelState) :
    st.loadable = true ↔ st = .idle ∨ st = .ready ∨ st = .done ∨ st = .faulted := by
  cases st <;> simp [ChannelState.loadable]

/-- A channel outside a pass has no live entry. -/
theorem liveOk_loadable {r : Channel} (h : LiveOk r) (hst : r.state.loadable = true) : r.live = 0 := by
  obtain ⟨-, -, -, hs⟩ := h
  rcases (loadable_iff _).mp hst with e | e | e | e <;> simpa only [e] using hs

theorem liveOk_loaded {own : Station} {c : Fin 8} {a : LoadArgs} (h : loadAccepted own c a = true) :
    LiveOk (loadedChannel a) := by
  obtain ⟨-, -, -, -, -, -, -, -, -, -, hd1, -⟩ := (loadAccepted_iff own c a).mp h
  refine ⟨Nat.zero_le _, id, fun _ => ?_, rfl⟩
  show 1 ≤ if a.mailbox = true then 1 else a.depth
  split <;> omega

theorem chLoad_requesterKept (s : State) : RequesterKept s (chLoad s).1 := by
  refine onChannel_requesterKept (fun c u ht => ?_) s
  split
  · rename_i hacc
    exact .setChannel (fun _ => channelOk_loaded hacc) fun hl => ⟨(liveOk_loadable hl ht).symm, liveOk_loaded hacc⟩
  · exact .refl u

theorem chStart_requesterKept (s : State) : RequesterKept s (chStart s).1 := by
  refine onChannel_requesterKept (fun c u ht => ?_) s
  have hst : u.channels[c].state = .ready := beq_iff_eq.mp ht
  refine .setChannel (fun hc => channelOk_started hc hst) fun hl => ⟨rfl, ?_⟩
  have hnone := liveOk_loadable hl (by rw [hst]; rfl)
  obtain ⟨hle, hzero, hdepth, -⟩ := hl
  refine ⟨hle, hzero, fun _ => hdepth (by rw [hst]; decide), ?_⟩
  by_cases h0 : u.channels[c].initialCount = 0
  · simp only [h0, if_true]
    omega
  · simp only [h0, if_false, false_implies]

theorem chClear_requesterKept (s : State) : RequesterKept s (chClear s).1 := by
  refine onChannel_requesterKept (fun c u ht => ?_) s
  refine .setChannel channelOk_toIdle fun hl => ⟨rfl, ?_⟩
  have hst : u.channels[c].state = .done ∨ u.channels[c].state = .faulted := by simpa using ht
  have hnone := liveOk_loadable hl ((loadable_iff _).mpr (.inr (.inr hst)))
  exact ⟨hl.1, hl.2.1, fun h => absurd rfl h, hnone⟩

theorem chQuery_requesterKept (s : State) : RequesterKept s (chQuery s).1 :=
  onChannel_requesterKept (fun _ _ _ => .of_stay ⟨rfl, rfl, rfl, fun _ => .refl _ _, rfl, fun _ => rfl⟩) s

/-! CH_ABORT (R92, R93, R134). -/

theorem abortRelease_free_iff {s : State} {c : Fin 8} {i : Fin 16} : abortRelease s c i = .free ↔
    s.entries[i].owner = some c ∧ (s.entries[i].state = .sent ∨ s.entries[i].state = .holding ∨
      (s.entries[i].state = .staging ∨ s.entries[i].state = .landing) ∧ jobListed s i = true ∨
      s.entries[i].state = .queued ∧ inHandContending s i = false) := by
  unfold abortRelease
  split
  · rename_i ho
    split <;> simp_all
  · simp_all

theorem abortRelease_releasing_iff {s : State} {c : Fin 8} {i : Fin 16} : abortRelease s c i = .releasing ↔
    s.entries[i].owner = some c ∧ (s.entries[i].state = .sending ∨
      (s.entries[i].state = .staging ∨ s.entries[i].state = .landing) ∧ jobListed s i = false ∨
      s.entries[i].state = .queued ∧ inHandContending s i = true) := by
  unfold abortRelease
  split
  · rename_i ho
    split <;> simp_all
  · simp_all

/-- An abort takes every entry that the channel owns (R93). -/
theorem abortRelease_keep_iff {s : State} {c : Fin 8} {i : Fin 16} (h : EntryLaws s i) :
    abortRelease s c i = .keep ↔ s.entries[i].owner ≠ some c := by
  constructor
  · intro hk ho
    have hlive : ¬(s.entries[i].state = .free ∨ s.entries[i].state = .releasing) := fun hst => by
      rw [h.1.mpr hst] at ho
      cases ho
    rw [abortRelease, if_pos ho] at hk
    split at hk <;> simp_all [ite_eq_iff]
  · exact fun ho => if_neg ho

theorem abortRelease_releases {s : State} (h : ∀ i, EntryLaws s i) (c : Fin 8) : Releases s c (abortRelease s c) where
  owned := fun i hk => by_contra fun ho => hk ((abortRelease_keep_iff (h i)).mpr ho)
  free := fun i hr => by
    obtain ⟨hjob, hqueued, -, hidle⟩ := entryLaws_places (h i)
    rcases (abortRelease_free_iff.mp hr).2 with hst | hst | ⟨hst, hl⟩ | ⟨hst, hh⟩
    · exact hidle (.inl hst)
    · exact hidle (.inr hst)
    · obtain ⟨hhand, hs, -⟩ := hjob hst
      exact ⟨hs hl, hhand⟩
    · obtain ⟨hs, he⟩ := hqueued hst
      exact ⟨hs, he ▸ hh⟩
  releasing := fun i hr => by
    obtain ⟨hjob, hqueued, hsending, -⟩ := entryLaws_places (h i)
    rcases (abortRelease_releasing_iff.mp hr).2 with hst | ⟨hst, hl⟩ | ⟨hst, hh⟩
    · obtain ⟨hs, hhand⟩ := hsending hst
      rw [hs, hhand]
      rfl
    · obtain ⟨hhand, -, hs⟩ := hjob hst
      rw [hs hl, hhand]
      rfl
    · obtain ⟨hs, he⟩ := hqueued hst
      rw [hs, ← he, hh]
      rfl

/-- No entry is left to a channel that is aborted. -/
theorem ownedCount_aborted {s : State} (h : ∀ i, EntryLaws s i) (c : Fin 8) :
    ownedCount (s.releaseEntries (abortRelease s c)) c = 0 := by
  unfold ownedCount
  rw [List.countP_eq_zero]
  intro i _
  rw [releaseEntries_entry, beq_iff_eq]
  cases hr : abortRelease s c i with
  | keep => exact (abortRelease_keep_iff (h i)).mp hr
  | free => exact nofun
  | releasing => exact nofun

theorem chAbort_requesterKept (s : State) : RequesterKept s (chAbort s).1 := by
  refine onChannel_requesterKept (fun c u ht => ?_) s
  have hidle : u.channels[c].state ≠ .idle := fun e => by rw [e] at ht; cases ht
  refine ⟨fun hc => ?_, fun _ hs => (RequestsStay.post _ _).requests ?_⟩
  · refine channelInv_setChannel (fun hd => ?_) (channelInv_congr (releaseEntries_channels u _) hc)
    rw [releaseEntries_channels] at hd
    exact channelOk_faulting hd (.inr rfl) (by decide) hidle rfl
  · have hgone := ((owing_zero_iff u c).mpr hs).release (abortRelease_releases hs.laws c)
    refine hgone.setChannel ?_ (liveOk_faulting (((requestsOk_iff u).mp hs).2.2.1 c) hidle (.inr ⟨rfl, rfl⟩) _ _ _)
    have hcount := hgone.count
    rw [ownedCount_aborted hs.laws c] at hcount
    exact hcount.symm

end Sys2Proof.Machine
end

section
/-! The requester side's own events: the formation of requests, the timers and the PACE inputs. -/

namespace Sys2Proof.Machine

namespace RequesterKept

/-- A first part that leaves the line's predicate as it was. -/
theorem trans {s t u : State} (h : RequesterKept s t) (hl : LineCore s → LineCore t) (g : RequesterKept t u) :
    RequesterKept s u :=
  ⟨fun hc => g.channels (h.channels hc), fun hcore hs => g.requests (hl hcore) (h.requests hcore hs)⟩

/-- Of a state that the requester side sees no difference in. -/
theorem of_same {s t u : State} (h : RequestsStay s t) (hl : LineCore s → LineCore t) (g : RequesterKept t u) :
    RequesterKept s u :=
  (of_stay h).trans hl g

end RequesterKept

/-- An entry that is neither FREE nor RELEASING has an owner. -/
theorem EntryLaws.owned {s : State} {i : Fin 16} (h : EntryLaws s i)
    (hst : s.entries[i].state ≠ .free ∧ s.entries[i].state ≠ .releasing) : s.entries[i].owner ≠ none := fun ho =>
  (h.1.mp ho).elim hst.1 hst.2

/-! ### Formation (R74 to R78, R84, R98) -/

theorem eligibleData_iff (s : State) (c : Fin 8) : eligibleData s c = true ↔
    s.channels[c].state = .running ∧ 0 < s.channels[c].remaining ∧ s.channels[c].live < s.channels[c].depth ∧
    (s.channels[c].paced = true → paceLevel s c = true ∧ s.channels[c].armed = true) ∧
    (freeIndex s).isSome = true ∧ requesterHeld s < Config.requesterBuffers := by
  have hpace : s.channels[c].paced = false ∨ paceLevel s c = true ∧ s.channels[c].armed = true ↔
      (s.channels[c].paced = true → paceLevel s c = true ∧ s.channels[c].armed = true) := by
    cases s.channels[c].paced <;> simp
  unfold eligibleData
  rw [Bool.and_eq_true, Bool.and_eq_true, Bool.and_eq_true, Bool.and_eq_true, Bool.and_eq_true, beq_iff_eq,
    decide_eq_true_eq, decide_eq_true_eq, decide_eq_true_eq, Bool.or_eq_true, Bool.and_eq_true, Bool.not_eq_true', hpace]
  simp only [and_assoc]

theorem eligibleSignal_iff (s : State) (c : Fin 8) : eligibleSignal s c = true ↔
    s.channels[c].state = .signalling ∧ s.channels[c].live = 0 ∧ (freeIndex s).isSome = true := by
  unfold eligibleSignal
  rw [Bool.and_eq_true, Bool.and_eq_true, beq_iff_eq, decide_eq_true_eq, and_assoc]

theorem freeIndex_free {s : State} {i : Fin 16} (h : freeIndex s = some i) : s.entries[i].state = .free := by
  have := List.find?_some h
  simpa using this

/-- A channel's record after the formation of a data request has one live entry more (R76). -/
theorem liveOk_afterFormation {r : Channel} (h : LiveOk r) (hst : r.state = .running) (hroom : r.live < r.depth)
    (hrest : 0 < r.remaining) : LiveOk r.afterFormation := by
  obtain ⟨-, hzero, -, -⟩ := h
  refine ⟨hroom, fun h0 => ?_, fun _ => by simp only [Channel.afterFormation]; omega, ?_⟩
  · have := hzero h0
    omega
  · by_cases h0 : r.remaining - r.nextLength = 0
    · simp [Channel.afterFormation, h0]
    · simp only [Channel.afterFormation, if_neg h0, hst]
      intro hc
      have := hzero hc
      omega

theorem liveOk_signalFormed {r : Channel} (h : LiveOk r) (hst : r.state = .signalling) (hlive : r.live = 0) :
    LiveOk { r with live := r.live + 1 } := by
  obtain ⟨-, hzero, hdepth, -⟩ := h
  have := hdepth (by rw [hst]; decide)
  refine ⟨by dsimp only; omega, hzero, hdepth, ?_⟩
  simp [hst, hlive]

/-- A formed entry goes on to its staging read or to the Request Queue (R77, R78). -/
theorem Loose.launch {s : State} {i : Fin 16} {e : Entry} (h : Loose s i) (ho : OwnersOk s.engine)
    (he : s.entries[i] = e) (hne : e.owner ≠ none) (htimer : e.timer = .stopped)
    (hput : e.kind = .put → e.state = .staging) (hqueue : e.kind ≠ .put → e.state = .queued) :
    RequestsOk (s.launch i e) := by
  have hjoin : e.state = .queued → RequestsOk { s with requestQueue := s.requestQueue ++ [i] } := fun hst => by
    refine h.replaced (e := e) ?_ rfl rfl rfl (fun k => ?_) ?_ (by rw [he]) (iff_of_false hne ?_) ?_
      (.inr (.inr (.inr hst)))
    · rw [← he]
      exact (Vector.set_getElem_self _).symm
    · simp [hst]
    · exact List.nodup_append.mpr ⟨h.nodup, List.nodup_singleton i, fun a ha b hb e => by
        rw [List.mem_singleton] at hb; exact h.queue (hb ▸ e ▸ ha)⟩
    · rw [hst]; decide
    · unfold TimerOk
      rw [htimer, hst]
      decide
  unfold State.launch
  split
  case h_1 hk =>
    exact h.queueRequester ho (he ▸ hne) (.inl (he ▸ hput hk)) (he ▸ htimer) rfl
  case h_2 hk => exact hjoin (hqueue (by rw [hk]; decide))
  case h_3 hk => exact hjoin (hqueue (by rw [hk]; decide))

/-- A PUT begins with its staging read, a GET in the Request Queue (R77, R78). -/
theorem dataEntry_state (e : Entry) (c : Fin 8) (r : Channel) (b : Option (Fin 24)) :
    ((dataEntry e c r b).kind = .put → (dataEntry e c r b).state = .staging) ∧
    ((dataEntry e c r b).kind ≠ .put → (dataEntry e c r b).state = .queued) := by
  unfold dataEntry
  cases r.direction <;> simp

/-- A buffer given changes the Pool alone. -/
theorem giveBuffer_eq (s : State) (b : Option (Fin 24)) (o : BufferOwner) :
    ∃ bs, s.giveBuffer b o = { s with buffers := bs } := by
  cases b <;> exact ⟨_, rfl⟩

theorem formData_requests {s : State} {c : Fin 8} {i : Fin 16} (hl : LineCore s) (h : RequestsOk s)
    (hfree : s.entries[i].state = .free) (hel : eligibleData s c = true) : RequestsOk (s.formData c i) := by
  obtain ⟨hst, hrest, hroom, -⟩ := (eligibleData_iff s c).mp hel
  have howner := (h.laws i).1.mpr (.inl hfree)
  have hlive := liveOk_afterFormation (((requestsOk_iff s).mp h).2.2.1 c) hst hroom hrest
  obtain ⟨bs, hb⟩ := giveBuffer_eq s (freeBuffer s) (.entry i)
  have hloose := (h.loose_waiting (.inl hfree)).formed (t := ({ ({ s with buffers := bs } : State).setEntry i
      (dataEntry s.entries[i] c s.channels[c] (freeBuffer s)) with pointer := c }).setChannel c
        s.channels[c].afterFormation) rfl rfl rfl rfl rfl howner rfl rfl hlive
  rw [State.formData, hb]
  refine hloose.launch hl.owners ?_ nofun rfl ?_ ?_
  · show (s.entries.set i _)[i] = _
    rw [getElem_set_fin, if_pos rfl]
  · exact (dataEntry_state _ c s.channels[c] _).1
  · exact (dataEntry_state _ c s.channels[c] _).2

theorem formSignal_requests {s : State} {c : Fin 8} {i : Fin 16} (hl : LineCore s) (h : RequestsOk s)
    (hfree : s.entries[i].state = .free) (hel : eligibleSignal s c = true) : RequestsOk (s.formSignal c i) := by
  obtain ⟨hst, hzero, -⟩ := (eligibleSignal_iff s c).mp hel
  have howner := (h.laws i).1.mpr (.inl hfree)
  have hlive := liveOk_signalFormed (((requestsOk_iff s).mp h).2.2.1 c) hst hzero
  have hloose := (h.loose_waiting (.inl hfree)).formed
    (t := ({ s.setEntry i (signalEntry s.entries[i] c s.channels[c]) with pointer := c }).setChannel c
      { s.channels[c] with live := s.channels[c].live + 1 }) rfl rfl rfl rfl rfl howner rfl rfl hlive
  refine hloose.launch hl.owners ?_ nofun rfl nofun fun _ => rfl
  show (s.entries.set i _)[i] = _
  rw [getElem_set_fin, if_pos rfl]

theorem execFormation_requesterKept {s t : State} (h : execFormation s = .next t) : RequesterKept s t := by
  unfold execFormation at h
  split at h
  case h_1 c i _ hi =>
    split at h <;> cases h
    · rename_i hel
      have hst := ((eligibleData_iff s c).mp hel).1
      refine ⟨fun hc => ?_, fun hl hs => formData_requests hl hs (freeIndex_free hi) hel⟩
      exact channelInv_congr (formData_channels s c i)
        (channelInv_setChannel (s := s) (fun hok => channelOk_afterFormation hok hst) hc)
    · exact .refl s
  all_goals cases h; exact .refl s

theorem execSignalFormation_requesterKept {s t : State} (h : execSignalFormation s = .next t) : RequesterKept s t := by
  unfold execSignalFormation at h
  split at h
  case h_1 c i _ hi =>
    split at h <;> cases h
    · rename_i hel
      refine ⟨fun hc => ?_, fun hl hs => formSignal_requests hl hs (freeIndex_free hi) hel⟩
      exact channelInv_congr (formSignal_channels s c i)
        (channelInv_setChannel (r := { s.channels[c] with live := s.channels[c].live + 1 }) id hc)
    · exact .refl s
  all_goals cases h; exact .refl s

/-! ### The timers (R107, R114) -/

theorem execResponseTimerExpiry_requesterKept {s t : State} {i : Fin 16} (h : execResponseTimerExpiry i s = .next t) :
    RequesterKept s t := by
  unfold execResponseTimerExpiry at h
  split at h <;> cases h
  case h_1 hst _ =>
    refine ⟨fun hc => retryEntry_channelInv hc i, fun _ hs => ?_⟩
    exact (hs.loose_waiting (.inr (.inl hst))).retryEntry ((hs.laws i).owned (by rw [hst]; decide))
  case h_2 => exact .refl s

theorem execHoldTimerExpiry_requesterKept {s t : State} {i : Fin 16} (h : execHoldTimerExpiry i s = .next t) :
    RequesterKept s t := by
  unfold execHoldTimerExpiry at h
  split at h <;> cases h
  case h_1 hst _ =>
    refine ⟨fun hc => hc, fun _ hs => ?_⟩
    exact (hs.loose_waiting (.inr (.inr hst))).queueTail rfl ((hs.laws i).owned (by rw [hst]; decide))
  case h_2 => exact .refl s

/-! ### The PACE inputs (R81, R87) -/

/-- An input's level stands in no law. -/
theorem pinned_stays (s : State) (p : Pins) : RequestsStay s { s with pins := p } :=
  ⟨rfl, rfl, rfl, fun _ => .refl _ _, rfl, fun _ => rfl⟩

theorem liveOk_afterAssertion {r : Channel} (h : LiveOk r) :
    r.afterAssertion.live = r.live ∧ LiveOk r.afterAssertion := by
  unfold Channel.afterAssertion
  split
  case isFalse => exact ⟨rfl, h⟩
  case isTrue hc =>
    obtain ⟨-, hst, -⟩ := hc
    obtain ⟨hle, hzero, hdepth, hnone⟩ := h
    rw [hst] at hnone hdepth
    refine ⟨rfl, hle, hzero, fun _ => hdepth (by decide), ?_⟩
    by_cases h0 : r.initialCount = 0
    · simp [h0, hnone h0]
    · simp [h0]

theorem execPaceAsserted_requesterKept {s t : State} {n : Fin 4} (h : execPaceAsserted n s = .next t) :
    RequesterKept s t := by
  unfold execPaceAsserted at h
  split at h <;> cases h
  · exact .refl s
  · have hset := RequesterKept.setChannel (s := { s with pins := { s.pins with pace := s.pins.pace.set n true } })
      (c := pacedChannel n) (r := s.channels[pacedChannel n].afterAssertion) channelOk_afterAssertion
      liveOk_afterAssertion
    exact ⟨hset.channels, hset.requests⟩

end Sys2Proof.Machine
end

section
/-! The line's events on the requester side: the frame in hand goes through its round and its send, and a taken answer
finds its entry. -/

namespace Sys2Proof.Machine

/-! ### The frame in hand -/

theorem engaged_of_hand {l : Line} {h : Hand} (hst : l.state = .contending ∨ l.state = .sending) (hh : l.hand = some h) :
    engaged l = some h.owner := by
  rw [engaged, if_pos hst, hh]
  rfl

theorem engaged_off {l : Line} (hst : l.state ≠ .contending ∧ l.state ≠ .sending) : engaged l = none :=
  if_neg fun h => h.elim hst.1 hst.2

/-- The state of an entry whose frame is in hand, in a round and in a send. -/
theorem EntryLaws.handed {s : State} {i : Fin 16} (h : EntryLaws s i) (hh : engaged s.line = some (.request i)) :
    (s.line.state = .contending → s.entries[i].state = .queued ∨ s.entries[i].state = .releasing) ∧
    (s.line.state = .sending → s.entries[i].state = .sending ∨ s.entries[i].state = .releasing) := by
  have hplace := (entryOk_iff s i).mp h.2.2.2
  rw [(inHand_iff s i).mpr hh] at hplace
  cases hst : s.entries[i].state <;> rw [hst] at hplace <;> simp [PlaceOk] at hplace <;> simp [hplace]

/-- Outside SENT and HOLDING an entry's timer is stopped (R97). -/
theorem timer_stopped {e : Entry} (h : TimerOk e) (hst : e.state ≠ .sent ∧ e.state ≠ .holding) : e.timer = .stopped := by
  unfold TimerOk at h
  split at h
  · assumption
  · exact absurd h hst.1
  · exact absurd h hst.2

/-- An entry that the line's frame in hand is not, before or after. -/
theorem setLine_stays {s : State} {l : Line} {i : Fin 16} (hs : engaged s.line ≠ some (.request i))
    (hl : engaged l ≠ some (.request i)) : EntryStays s (s.setLine l) i := by
  have hs' : inHand s i = false := by rw [Bool.eq_false_iff, ne_eq, inHand_iff]; exact hs
  have hl' : inHand (s.setLine l) i = false := by rw [Bool.eq_false_iff, ne_eq, inHand_iff]; exact hl
  exact ⟨rfl, Iff.rfl, .refl _ _, hl'.trans hs'.symm, fun h => by rw [hs'] at h; cases h⟩

section
variable {s t : State} {i : Fin 16} (h : RequestsOk s)
include h

/-- One entry moves, under the owner it had. -/
theorem RequestsOk.moved (howner : t.entries[i].owner = s.entries[i].owner) (hchannels : t.channels = s.channels)
    (hothers : ∀ k, k ≠ i → EntryStays s t k) (hself : EntryLaws t i) (hnodup : t.requestQueue.Nodup) :
    RequestsOk t := by
  obtain ⟨hlaws, hcounts, hlive, -⟩ := (requestsOk_iff s).mp h
  exact requestsOk_of_entry (fun k _ => hlaws k) hcounts hlive howner hchannels hothers hself hnodup

/-- Where no entry's frame is in hand, before or after, the line is no matter of the requester side's. -/
theorem RequestsOk.setLine {l : Line} (hs : ∀ i, engaged s.line ≠ some (.request i))
    (hl : ∀ i, engaged l ≠ some (.request i)) : RequestsOk (s.setLine l) := by
  obtain ⟨hlaws, hcounts, hlive, hnodup⟩ := (requestsOk_iff s).mp h
  exact (requestsOk_iff _).mpr ⟨fun k => (setLine_stays (hs k) (hl k)).laws (hlaws k), hcounts, hlive, hnodup⟩

end

/-! ### The round (R104, R133 to R135) -/

/-- A request that is offered is QUEUED. -/
theorem offer_queued {s : State} {f : Hand} {i : Fin 16} (h : offer s = some f) (ho : f.owner = .request i) :
    i ∈ s.requestQueue := by
  unfold offer at h
  split at h
  · split at h
    · cases h
    · split at h <;> cases h
      cases ho
  · split at h <;> cases h
    rename_i k rest hq
    cases ho
    rw [hq]
    exact List.mem_cons_self

theorem execStartOpportunity_requests {s t : State} (h : execStartOpportunity s = .next t) (hs : RequestsOk s) :
    RequestsOk t := by
  unfold execStartOpportunity at h
  split at h
  case isFalse => cases h; exact hs
  case isTrue hst =>
    have hoff : engaged s.line = none := engaged_off (by rw [hst]; decide)
    split at h <;> cases h
    case h_1 => exact (RequestsStay.setLine_off hoff (engaged_off (by rw [hst]; decide))).requests hs
    case h_2 f hoffer =>
      have hon : engaged { s.line with state := .contending, hand := some f, aborting := false } = some f.owner := rfl
      cases ho : f.owner with
      | response k =>
        exact hs.setLine (fun i => by rw [hoff]; exact nofun) fun i => by rw [hon, ho]; exact nofun
      | request i =>
        obtain ⟨howner, hqueue, htimer, hplace⟩ := hs.laws i
        refine hs.moved (i := i) rfl rfl (fun k hk => ?_) ⟨howner, hqueue, htimer, ?_⟩
          ((requestsOk_iff s).mp hs).2.2.2
        · exact setLine_stays (by rw [hoff]; exact nofun) (by rw [hon, ho]; exact fun e => by cases e; exact hk rfl)
        · have hqueued := hqueue.mp (offer_queued hoffer ho)
          rw [entryOk_iff, hqueued] at hplace
          refine (entryOk_iff _ i).mpr ?_
          rw [State.setLine_entries, hqueued]
          exact ⟨hplace.1, hplace.2.1, fun _ => rfl⟩

theorem execRoundLost_requests {s t : State} (h : execRoundLost s = .next t) (hs : RequestsOk s) : RequestsOk t := by
  unfold execRoundLost at h
  split at h
  case h_2 => cases h; exact hs
  case h_1 f hst hf =>
    have hon := engaged_of_hand (.inl hst) hf
    split at h <;> cases h
    case h_1 k ho => exact hs.setLine (fun i => by rw [hon, ho]; exact nofun) nofun
    case h_2 i ho =>
      rw [ho] at hon
      unfold State.entryRoundLost
      split
      · rename_i hrel
        have hloose := hs.loose_hand hon (l := { s.line with state := .receiving, hand := none, rx := .receiving }) rfl
          (.inr hrel)
        exact hloose.freeEntry_unowned ((hs.laws i).1.mpr (.inr hrel))
      · rename_i hrel
        obtain ⟨howner, hqueue, htimer, hplace⟩ := hs.laws i
        refine hs.moved (i := i) rfl rfl (fun k hk => ?_) ⟨howner, hqueue, htimer, ?_⟩
          ((requestsOk_iff s).mp hs).2.2.2
        · exact setLine_stays (by rw [hon]; exact fun e => by cases e; exact hk rfl) nofun
        · have hqueued := (((hs.laws i).handed hon).1 hst).resolve_right hrel
          rw [entryOk_iff, hqueued] at hplace
          refine (entryOk_iff _ i).mpr ?_
          rw [State.setLine_entries, hqueued]
          exact ⟨hplace.1, hplace.2.1, nofun⟩

theorem execRoundWon_requests {s t : State} (h : execRoundWon s = .next t) (hs : RequestsOk s) : RequestsOk t := by
  unfold execRoundWon at h
  split at h
  case h_2 => cases h; exact hs
  case h_1 f hst hf =>
    have hon := engaged_of_hand (.inl hst) hf
    have hon' : engaged { s.line with state := .sending } = some f.owner := engaged_of_hand (.inr rfl) hf
    split at h <;> cases h
    case h_1 k ho =>
      exact hs.setLine (fun i => by rw [hon, ho]; exact nofun) fun i => by rw [hon', ho]; exact nofun
    case h_2 i ho =>
      rw [ho] at hon hon'
      have hin' : inHand (s.setLine { s.line with state := .sending }) i = true := (inHand_iff _ i).mpr hon'
      obtain ⟨howner, hqueue, htimer, hplace⟩ := hs.laws i
      have hothers : ∀ k, k ≠ i → EntryStays s (s.setLine { s.line with state := .sending }) k := fun k hk =>
        setLine_stays (by rw [hon]; exact fun e => by cases e; exact hk rfl)
          (by rw [hon']; exact fun e => by cases e; exact hk rfl)
      have hnodup := ((requestsOk_iff s).mp hs).2.2.2
      rw [entryOk_iff] at hplace
      unfold State.sendEntry
      split
      · rename_i hqueued
        have hqueued : s.entries[i].state = .queued := hqueued
        rw [hqueued] at hplace howner
        have hne : s.entries[i].owner ≠ none := fun e => (howner.mp e).elim nofun nofun
        have hstopped : s.entries[i].timer = .stopped := timer_stopped htimer (by rw [hqueued]; decide)
        refine hs.moved (i := i) ?_ rfl (fun k hk => ⟨?_, ?_, .refl _ _, (hothers k hk).hand, (hothers k hk).line⟩) ?_
          (hnodup.filter _)
        · rw [setEntry_get_self]
          rfl
        · exact setEntry_get_other _ _ _ _ hk.symm
        · simp [hk]
        · unfold EntryLaws
          rw [entryOk_iff, setEntry_get_self]
          refine ⟨iff_of_false hne nofun, iff_of_false (by simp) nofun, ?_, hplace.1, hplace.2.1, hin', rfl⟩
          unfold TimerOk
          simp only [State.setLine_entries, hstopped]
          decide
      · rename_i hnot
        have hrel := (((hs.laws i).handed hon).1 hst).resolve_left hnot
        refine hs.moved (i := i) rfl rfl hothers ⟨howner, hqueue, htimer, (entryOk_iff _ i).mpr ?_⟩ hnodup
        rw [(inHand_iff s i).mpr hon, hrel] at hplace
        rw [State.setLine_entries, hrel, hin']
        exact hplace

/-! ### The end of a send, and a clash (R104 to R106, R116, R117, R139, R140) -/

theorem execSentFrameEnd_requests {s t : State} {slot : LineCond} (h : execSentFrameEnd slot s = .next t)
    (hs : RequestsOk s) : RequestsOk t := by
  unfold execSentFrameEnd at h
  split at h
  case h_2 => cases h; exact hs
  case h_1 f hst hf =>
    have hon := engaged_of_hand (.inr hst) hf
    cases h
    cases ho : f.owner with
    | response k =>
      refine (RequestsStay.of_responder (.responseSent _ k _) fun i => ?_).requests
        (hs.setLine (fun i => by rw [hon, ho]; exact nofun) nofun)
      rw [responseSent_engine]
      exact .refl _ _
    | request i =>
      rw [ho] at hon
      have hstate := ((hs.laws i).handed hon).2 hst
      have hloose := hs.loose_hand hon (l := { s.line with
        state := .idle, lastWinner := s.loader.number, clashes := 0, hand := none }) rfl hstate
      unfold State.giveResult State.entrySent
      dsimp only
      split
      · rename_i hrel
        exact hloose.freeEntry_unowned ((hs.laws i).1.mpr (.inr hrel))
      · rename_i hrel
        have hne : s.entries[i].owner ≠ none := (hs.laws i).owned ⟨fun e => by rw [e] at hstate; simp at hstate, hrel⟩
        split
        · exact hloose.setEntry rfl hne rfl (.inl rfl)
        · exact hloose.retryEntry hne

theorem execClash_requests {s t : State} (h : execClash s = .next t) (hs : RequestsOk s) : RequestsOk t := by
  unfold execClash at h
  split at h
  case h_2 => cases h; exact hs
  case h_1 f hst hf =>
    have hon := engaged_of_hand (.inr hst) hf
    have hoff : engaged s.line.afterClash = none := by
      refine engaged_off ?_
      unfold Line.afterClash
      dsimp only
      split <;> decide
    have hgive : RequestsOk ((s.setLine s.line.afterClash).giveClash f.owner) := by
      cases ho : f.owner with
      | response k => exact hs.setLine (fun i => by rw [hon, ho]; exact nofun) fun i => by rw [hoff]; exact nofun
      | request i =>
        rw [ho] at hon
        have hstate := ((hs.laws i).handed hon).2 hst
        have hloose := hs.loose_hand hon hoff hstate
        unfold State.giveClash State.entryClashed
        dsimp only
        split
        · rename_i hrel
          exact hloose.freeEntry_unowned ((hs.laws i).1.mpr (.inr hrel))
        · rename_i hrel
          have hsend : s.entries[i].state = .sending := hstate.resolve_right hrel
          split
          · exact hloose.dropEntry ‹_›
          · exact hloose.queueHead ((hs.laws i).owned (by rw [hsend]; decide))
              (timer_stopped (e := s.entries[i]) (hs.laws i).2.2.1 (by rw [hsend]; decide))
    split at h <;> cases h
    · exact (RequestsStay.post _ _).requests hgive
    · exact hgive

/-! ### Receipts, joining and restart (R127 to R132, R137, R143) -/

theorem execStartMark_stays (seen : LineCond) (s : State) : RequestsStay s (s.setLine (s.line.afterMark seen)) := by
  unfold Line.afterMark
  split
  · exact .setLine rfl fun _ => rfl
  · split
    case h_1 hst => exact .setLine_off (engaged_off (by rw [hst]; decide)) rfl
    case h_2 hst => exact .setLine_off (engaged_off (by rw [hst]; decide)) (engaged_off (by simp [hst]))
    case h_3 hst => exact .setLine_off (engaged_off (by rw [hst]; decide)) (engaged_off (by simp [hst]))
    all_goals exact .setLine rfl fun _ => rfl

theorem endFrame_stays (s : State) : RequestsStay s s.endFrame := by
  unfold State.endFrame
  split
  case h_1 hst => exact .setLine_off (engaged_off (by rw [hst]; decide)) rfl
  case h_2 hst =>
    have hoff : engaged s.line = none := engaged_off (by rw [hst]; decide)
    split
    · exact (RequestsStay.setLine_off hoff rfl).trans (.post _ _)
    · split <;> exact .setLine_off hoff (engaged_off (by simp [hst]))
  case h_3 hst =>
    have hoff : engaged s.line = none := engaged_off (by rw [hst]; decide)
    split <;> exact .setLine_off hoff (engaged_off (by simp [hst]))
  case h_4 hst => exact .setLine_off (engaged_off (by rw [hst]; decide)) (engaged_off (by simp [hst]))
  all_goals exact .refl s

theorem execFrameEnd_stays {s t : State} {conds : List LineCond} (h : execFrameEnd s conds = .next t) :
    RequestsStay s t := by
  unfold execFrameEnd at h
  split at h <;> cases h
  · exact endFrame_stays s
  · exact .refl s

theorem execJoiningTimerExpiry_stays {s t : State} (h : execJoiningTimerExpiry s = .next t) : RequestsStay s t := by
  unfold execJoiningTimerExpiry at h
  split at h <;> cases h
  · rename_i hst
    exact (RequestsStay.setLine_off (engaged_off (by rw [hst.1]; decide)) rfl).trans (.post _ _)
  · exact .refl s

theorem lineRestart_stays (s : State) : RequestsStay s (lineRestart s).1 := by
  unfold lineRestart
  split
  · rename_i hst
    exact .setLine_off (engaged_off (by rw [hst]; decide)) rfl
  · exact .refl s

/-! ### A taken frame (R25, R26, R109 to R113) -/

theorem fillBuffer_eq (s : State) (b : Option (Fin 24)) (p : List Byte) :
    ∃ bs, s.fillBuffer b p = { s with buffers := bs } := by
  cases b <;> exact ⟨_, rfl⟩

/-- A matching DATA takes the entry to its landing write (R111). -/
theorem Loose.landData {s : State} {i : Fin 16} (h : Loose s i) (ho : OwnersOk s.engine) (hne : s.entries[i].owner ≠ none)
    (htimer : s.entries[i].timer = .stopped) (payload : List Byte) : RequestsOk (s.landData i payload) := by
  obtain ⟨bs, hb⟩ := fillBuffer_eq s s.entries[i].buffer payload
  have hself : (({ s with buffers := bs } : State).setEntry i { s.entries[i] with state := .landing }).entries[i] =
      { s.entries[i] with state := .landing } := setEntry_get_self _ _ _
  have hloose := h.rewritten (t := ({ s with buffers := bs } : State).setEntry i { s.entries[i] with state := .landing })
    rfl rfl rfl rfl rfl rfl
  unfold State.landData
  rw [hb]
  exact hloose.queueRequester ho (by rw [hself]; exact hne) (.inr (by rw [hself])) (by rw [hself]; exact htimer) rfl

theorem takeAnswer_requests {s : State} (hl : LineCore s) (hoff : engaged s.line = none) (a : Answer)
    (hs : RequestsOk s) : RequestsOk (s.takeAnswer a) := by
  unfold State.takeAnswer
  split
  case isFalse => exact hs
  case isTrue hm =>
    have hst : ∀ i, i = tagEntry a.tag →
        s.entries[i].state = .queued ∨ s.entries[i].state = .sent ∨ s.entries[i].state = .holding := by
      rintro i rfl
      rw [answerMatches, Bool.and_eq_true, Bool.and_eq_true] at hm
      exact (matchable_iff _).mp hm.1.2
    have hloose : ∀ i, i = tagEntry a.tag → Loose (s.unqueue i) i := fun i hi =>
      hs.loose_unqueue (hst i hi) (inHand_of_none hoff i)
    have hself : ∀ i, (s.unqueue i).entries[i] = { s.entries[i] with timer := .stopped } := fun i =>
      setEntry_get_self _ _ _
    have hne : ∀ i, i = tagEntry a.tag → (s.unqueue i).entries[i].owner ≠ none := fun i hi => by
      rw [hself]
      refine (hs.laws i).owned ?_
      rcases hst i hi with e | e | e <;> rw [e] <;> decide
    cases a with
    | done tag o => exact (hloose _ rfl).settleDone (hne _ rfl) o
    | data tag p => exact (hloose _ rfl).landData hl.owners (hne _ rfl) (by rw [hself]) p

theorem takeFrame_requests {s : State} (hl : LineCore s) (f : Frame) (hs : RequestsOk s) :
    RequestsOk (s.takeFrame f).1 := by
  unfold State.takeFrame
  split
  · rename_i hto
    split
    · exact (takeRequest_stays hl.owners _).requests hs
    · exact takeAnswer_requests hl (engaged_off (by rw [hto.2.2]; decide)) _ hs
    · exact hs
  · exact hs

theorem execFrameCrcReceived_requesterKept {s t : State} {conds : List LineCond}
    (h : execFrameCrcReceived conds s = .next t) : RequesterKept s t := by
  unfold execFrameCrcReceived at h
  split at h
  · split at h <;> cases h
    · exact .refl s
    · rename_i f _
      exact ⟨fun hc => channelInv_congr rfl (takeFrame_channelInv hc f),
        fun hl hs => (RequestsStay.setLine rfl fun _ => rfl).requests (takeFrame_requests hl f hs)⟩
  · cases h; exact .refl s

/-! ### The line's events on the channel records -/

theorem execStartOpportunity_channels {s t : State} (h : execStartOpportunity s = .next t) : t.channels = s.channels := by
  unfold execStartOpportunity at h
  split at h
  · split at h <;> cases h <;> rfl
  · cases h; rfl

section
variable {s t : State} (hc : ChannelInv s)
include hc

theorem execRoundLost_channelInv (h : execRoundLost s = .next t) : ChannelInv t := by
  have hc' : ∀ l, ChannelInv (s.setLine l) := fun _ => hc
  unfold execRoundLost at h
  split at h
  case h_2 => cases h; exact hc
  case h_1 =>
    split at h <;> cases h
    · exact hc
    · unfold State.entryRoundLost
      split
      · exact freeEntry_channelInv (hc' _) _
      · exact hc

theorem execRoundWon_channelInv (h : execRoundWon s = .next t) : ChannelInv t := by
  unfold execRoundWon at h
  split at h
  case h_2 => cases h; exact hc
  case h_1 =>
    split at h <;> cases h
    · exact hc
    · unfold State.sendEntry
      split <;> exact hc

theorem execSentFrameEnd_channelInv {slot : LineCond} (h : execSentFrameEnd slot s = .next t) : ChannelInv t := by
  have hc' : ∀ l, ChannelInv (s.setLine l) := fun _ => hc
  unfold execSentFrameEnd at h
  split at h
  case h_2 => cases h; exact hc
  case h_1 =>
    cases h
    unfold State.giveResult
    split
    · exact channelInv_congr (ResponderFrame.responseSent _ _ _).channels (hc' _)
    · exact entrySent_channelInv (hc' _) _ _

theorem execClash_channelInv (h : execClash s = .next t) : ChannelInv t := by
  have hc' : ∀ l, ChannelInv (s.setLine l) := fun _ => hc
  unfold execClash at h
  split at h
  case h_2 => cases h; exact hc
  case h_1 f _ _ =>
    have hgive : ChannelInv ((s.setLine s.line.afterClash).giveClash f.owner) := by
      unfold State.giveClash
      split
      · exact hc
      · exact entryClashed_channelInv (hc' _) _
    split at h <;> cases h
    · exact hgive
    · exact hgive

end

end Sys2Proof.Machine
end

section
/-! The engine's job ends and the resets on the requester side, and then every command and every step. -/

namespace Sys2Proof.Machine

/-! ### The end of a job (R101, R112, R157, R159) -/

theorem selectJob_requesterKept (s : State) : RequesterKept s s.selectJob where
  channels := by
    obtain ⟨e, he⟩ := selectJob_eq s
    rw [he]
    exact id
  requests := fun hl => (RequestsStay.selectJob hl.owners).requests

/-- The engine lets a job go that is no entry's. -/
theorem releaseEngine_stays {s : State} {j : Job} (hj : s.engine.job = some j) (ho : ∀ i, j.owner ≠ .entry i) :
    RequestsStay s s.releaseEngine := by
  refine ⟨rfl, rfl, rfl, fun i => ⟨?_, le_refl _⟩, rfl, fun _ => rfl⟩
  simp [entryStarted, entryListed, State.releaseEngine, hj, ho i]

theorem Loose.entryJobEnd {s : State} {i : Fin 16} (h : Loose s i)
    (howner : s.entries[i].owner = none ↔ s.entries[i].state = .free ∨ s.entries[i].state = .releasing)
    (hst : s.entries[i].state = .staging ∨ s.entries[i].state = .landing ∨ s.entries[i].state = .releasing)
    (faulted : Bool) : RequestsOk (s.entryJobEnd i faulted) := by
  unfold State.entryJobEnd
  rcases hst with hst | hst | hst <;> rw [hst] at howner ⊢ <;> dsimp only
  case inl =>
    have hne : s.entries[i].owner ≠ none := fun e => (howner.mp e).elim nofun nofun
    split
    · exact h.failEntry hne _
    · split
      · exact h.dropEntry ‹_›
      · exact h.queueTail rfl hne
  case inr.inl =>
    have hne : s.entries[i].owner ≠ none := fun e => (howner.mp e).elim nofun nofun
    split
    · exact h.failEntry hne _
    · exact h.completeEntry hne
  case inr.inr => exact h.freeEntry_unowned (howner.mpr (.inr rfl))

/-- The loader's decision finds the line OFFLINE and takes it to JOINING at most (R128, R188, R189). -/
theorem decideStart_stays {s : State} (hoff : engaged s.line = none) (faulted : Bool) :
    RequestsStay s (s.decideStart faulted) := by
  have hfail : ∀ r, RequestsStay s (s.failStart r) := fun r =>
    RequestsStay.trans (t := { s with loader := { s.loader with station := .startFailed, reason := some r } })
      ⟨rfl, rfl, rfl, fun _ => .refl _ _, rfl, fun _ => rfl⟩ (.post _ _)
  unfold State.decideStart
  split
  · exact hfail _
  · split
    · exact hfail _
    · exact ⟨rfl, rfl, rfl, fun _ => .refl _ _, hoff.symm, fun h => absurd hoff h⟩

theorem decideStart_engine (s : State) (faulted : Bool) : (s.decideStart faulted).engine = s.engine := by
  unfold State.decideStart
  split
  · rfl
  · split <;> rfl

/-- The started job's owner acts on an engine that has let the job go. -/
theorem reportJobEnd_requesterKept {s : State} {j : Job} (hj : s.engine.job = some j) (faulted : Bool) :
    RequesterKept s (s.releaseEngine.reportJobEnd j.owner faulted) := by
  cases ho : j.owner with
  | operation k =>
    have hstay := releaseEngine_stays hj (by simp [ho])
    refine .of_stay (hstay.trans (.of_responder (.operationJobEnd _ k faulted) fun i => ?_))
    rw [State.reportJobEnd, operationJobEnd_engine]
    exact .refl _ i
  | entry i =>
    refine ⟨fun hc => entryJobEnd_channelInv (s := s.releaseEngine) hc i faulted, fun _ hs => ?_⟩
    obtain ⟨hloose, hst⟩ := hs.loose_job hj ho
    exact hloose.entryJobEnd (hs.laws i).1 hst faulted
  | loader =>
    have hstay := releaseEngine_stays hj (by simp [ho])
    refine ⟨fun hc => ?_, fun hl hs => ?_⟩
    · refine channelInv_congr ?_ hc
      show (s.releaseEngine.decideStart faulted).channels = _
      unfold State.decideStart
      split
      · rfl
      · split <;> rfl
    · obtain ⟨hoffline, hloader, -⟩ := (startOk_iff s).mp hl.2
      have hline : s.releaseEngine.line.state = .offline := hoffline.mpr (by rw [hloader ⟨j, hj, ho⟩]; decide)
      exact (hstay.trans (decideStart_stays (engaged_off (by rw [hline]; decide)) faulted)).requests hs

theorem reportJobEnd_owners (s : State) (o : JobOwner) (faulted : Bool) (h : OwnersOk s.engine) :
    OwnersOk (s.reportJobEnd o faulted).engine := by
  cases o with
  | operation k => exact (operationJobEnd_engine s k faulted).symm ▸ h
  | entry i => exact (Quiet.entryJobEnd s i faulted).engine.owners h
  | loader => exact (decideStart_engine s faulted).symm ▸ h

theorem endJob_requesterKept {s : State} {j : Job} (hj : s.engine.job = some j) (faulted : Bool) :
    RequesterKept s (s.endJob j.owner faulted) := by
  have hreport := reportJobEnd_requesterKept hj faulted
  refine ⟨fun hc => (selectJob_requesterKept _).channels (hreport.channels hc), fun hl hs => ?_⟩
  have howners := reportJobEnd_owners _ j.owner faulted ((releaseEngine_owners s).owners hl.owners)
  exact (RequestsStay.selectJob howners).requests (hreport.requests hl hs)

/-! ### The engine's events (R153 to R156) -/

/-- The started job goes on in another phase. -/
theorem started_stays {s t : State} {j j' : Job} (hj : s.engine.job = some j) (hj' : t.engine.job = some j')
    (ho : j'.owner = j.owner) (hr : t.engine.requester = s.engine.requester) (hc : t.channels = s.channels)
    (he : t.entries = s.entries) (hq : t.requestQueue = s.requestQueue) (hl : t.line = s.line) : RequestsStay s t :=
  ⟨hc, he, hq, jobsStay_of_eq hr (by rw [hj, hj', Option.map_some, Option.map_some, ho]), by rw [hl], fun _ => by rw [hl]⟩

theorem execLbgntAsserted_stays {s t : State} (h : execLbgntAsserted s = .next t) : RequestsStay s t := by
  unfold execLbgntAsserted at h
  split at h <;> cases h
  · exact pinned_stays s _
  · rename_i j hj
    exact started_stays hj rfl rfl rfl rfl rfl rfl rfl

theorem execLbgntDeasserted_stays {s t : State} (h : execLbgntDeasserted s = .next t) : RequestsStay s t := by
  unfold execLbgntDeasserted at h
  split at h <;> cases h
  · exact pinned_stays s _
  · rename_i j hj
    exact started_stays hj rfl rfl rfl rfl rfl rfl rfl

theorem execLberr_requesterKept {s t : State} {inCycle : Bool} (h : execLberr s inCycle = .next t) :
    RequesterKept s t := by
  unfold execLberr at h
  split at h
  · cases h; exact .refl s
  · rename_i j hj
    split at h <;> cases h
    · exact endJob_requesterKept hj true
    · exact .refl s

theorem execGrantWaitExpiry_requesterKept {s t : State} (h : execGrantWaitExpiry s = .next t) : RequesterKept s t := by
  unfold execGrantWaitExpiry at h
  split at h
  · cases h; exact .refl s
  · rename_i j hj
    split at h <;> cases h
    · exact endJob_requesterKept hj true
    · exact .refl s

/-- A cycle moves bytes alone (R154). -/
theorem moveCycle_stays (s : State) (j : Job) : RequestsStay s (s.moveCycle j) := by
  obtain ⟨m, bs, l, h⟩ := moveCycle_eq s j
  rw [h]
  exact ⟨rfl, rfl, rfl, fun _ => .refl _ _, rfl, fun _ => rfl⟩

theorem completeCycle_requesterKept {s : State} {j : Job} (hj : s.engine.job = some j) :
    RequesterKept s (s.completeCycle j) := by
  obtain ⟨hquiet, he⟩ := moveCycle_quiet s j
  have hj' : (s.moveCycle j).engine.job = some j := by rw [he]; exact hj
  unfold State.completeCycle
  split
  · exact .of_same (moveCycle_stays s j) hquiet.kept.line (endJob_requesterKept hj' false)
  · refine .of_stay ((moveCycle_stays s j).trans ?_)
    unfold State.continueJob
    split <;> exact started_stays hj' rfl rfl rfl rfl rfl rfl rfl

theorem execBusCycleComplete_requesterKept {s t : State} {stores : List Host.Cell}
    (h : execBusCycleComplete stores s = .next t) : RequesterKept s t := by
  unfold execBusCycleComplete at h
  split at h
  · cases h; exact .refl s
  · rename_i j hj
    split at h
    · split at h <;> cases h
      have hstores : RequestsStay s { s with mem := Memory.writeCells s.mem stores } :=
        ⟨rfl, rfl, rfl, fun _ => .refl _ _, rfl, fun _ => rfl⟩
      exact .of_same hstores id (completeCycle_requesterKept hj)
    · cases h; exact .refl s

/-! ### The resets (R66, R99, R183) -/

theorem channelInv_of_reset {s t : State} (h : AtFullReset s) (hch : t.channels = s.channels) : ChannelInv t := by
  obtain ⟨-, -, -, -, hclear, -⟩ := h
  intro c
  rw [hch, hclear c]
  simp [ChannelOk, Config.memorySize]

/-- With every block at its full-reset value, but for the engine and the loader, the requester side's predicate holds
while no entry has a job. -/
theorem requestsOk_of_reset {s t : State} (h : AtFullReset s) (hch : t.channels = s.channels)
    (hen : t.entries = s.entries) (hq : t.requestQueue = s.requestQueue) (hl : t.line = s.line)
    (hlisted : ∀ i, entryListed t.engine i = 0) (hstarted : ∀ i, entryStarted t.engine i = false) : RequestsOk t := by
  obtain ⟨-, -, -, -, hclear, -, hfree, hqueue, hline, -⟩ := h
  refine (requestsOk_iff t).mpr ⟨fun i => ?_, fun c => ?_, fun c => ?_, ?_⟩
  · have hhand : inHand t i = false := inHand_of_none (by rw [hl, hline]; rfl) i
    unfold EntryLaws
    rw [entryOk_iff, jobsListed_eq, jobStarted_eq, hlisted i, hstarted i, hhand, hen, hq, hqueue, hfree i]
    exact ⟨iff_of_true rfl (.inl rfl), iff_of_false List.not_mem_nil nofun, ⟨nofun, nofun⟩, placeOk_idle (.inl rfl) _⟩
  · have hnone : ownedCount t c = 0 := by
      rw [ownedCount, List.countP_eq_zero]
      intro i _
      rw [hen, hfree i]
      exact Bool.false_ne_true
    rw [hnone, hch, hclear c]
  · rw [hch, hclear c]
    exact ⟨le_refl _, fun _ => rfl, fun h => absurd rfl h, rfl⟩
  · rw [hq, hqueue]
    exact List.nodup_nil

/-- A start from a full reset: the start read is no entry's (R160). -/
theorem beginStart_requests {s : State} (h : AtFullReset s) (straps : Station) : RequestsOk (s.beginStart straps) := by
  have heng : s.engine = { responder := [], requester := [], job := none, timer := none, lbreq := false } := by
    obtain ⟨-, -, -, -, -, -, -, -, -, -, he, -⟩ := h
    exact he
  rw [beginStart_eq]
  refine requestsOk_of_reset h rfl rfl rfl rfl (fun i => ?_) fun i => ?_
  · rw [heng]
    rfl
  · simp [entryStarted, engineStarted]

theorem execStationReset_requesterKept {s t : State} {straps : Station} (h : execStationReset straps s = .next t) :
    RequesterKept s t := by
  unfold execStationReset at h
  split at h <;> cases h
  · exact .refl s
  · refine ⟨fun _ => ?_, fun _ _ => beginStart_requests (fullReset_atFullReset s) straps⟩
    rw [beginStart_eq]
    exact channelInv_of_reset (fullReset_atFullReset s) rfl

theorem execResetAsserted_requesterKept {s t : State} {straps : Station} (h : execResetAsserted straps s = .next t) :
    RequesterKept s t := by
  cases h
  exact ⟨fun _ => channelInv_of_reset (fullReset_atFullReset s) rfl, fun _ _ =>
    requestsOk_of_reset (fullReset_atFullReset s) rfl rfl rfl rfl (fun _ => rfl) fun _ => rfl⟩

/-! ### Every command and every step -/

theorem takeUnknown_stays (code : Word) (s : State) : RequestsStay s (takeUnknown code s) := by
  unfold takeUnknown
  split <;> exact ⟨rfl, rfl, rfl, fun _ => .refl _ _, rfl, fun _ => rfl⟩

theorem portPop_stays (s : State) : RequestsStay s (portPop s) := by
  unfold portPop
  split <;> exact ⟨rfl, rfl, rfl, fun _ => .refl _ _, rfl, fun _ => rfl⟩

theorem portEnable_stays (value : Word) (enables : BitVec 4) (s : State) :
    RequestsStay s (portEnable value enables s) := by
  unfold portEnable
  split
  · exact .refl s
  · split <;> exact ⟨rfl, rfl, rfl, fun _ => .refl _ _, rfl, fun _ => rfl⟩

theorem portArgument_stays (position : Nat) (value : Word) (enables : BitVec 4) (s : State) :
    RequestsStay s (portArgument position value enables s) := by
  unfold portArgument
  split
  · exact .refl s
  · split <;> exact ⟨rfl, rfl, rfl, fun _ => .refl _ _, rfl, fun _ => rfl⟩

/-- The thirteen commands that an owner takes. -/
theorem ownedCommand_requesterKept : ∀ p ∈ ownedCommands, ∀ s, RequesterKept s (takeCommand p.2.1 p.2.2 s) := by
  suffices howner : ∀ p ∈ ownedCommands, ∀ u, RequesterKept u (p.2.2 u).1 from
    fun p hp s => takeCommand_requesterKept (howner p hp) s
  have hwindow : ∀ owner ∈ [winOpen, winPark, winUnpark, winClose, winGrants, winQuery, mboxConsume],
      ∀ u, RequesterKept u (owner u).1 := fun owner ho u => .of_stay (windowCommand_stays owner ho u)
  simp only [List.forall_mem_cons, List.not_mem_nil, false_implies, implies_true, and_true] at hwindow
  simp only [ownedCommands, List.forall_mem_cons, List.not_mem_nil, false_implies, implies_true, and_true]
  obtain ⟨hopen, hpark, hunpark, hclose, hgrants, hquery, hconsume⟩ := hwindow
  exact ⟨hopen, hpark, hunpark, hclose, hgrants, hquery, hconsume, chLoad_requesterKept, chStart_requesterKept,
    chAbort_requesterKept, chClear_requesterKept, chQuery_requesterKept, fun u => .of_stay (lineRestart_stays u)⟩

/-- A write to CMD is taken as one of the thirteen, as STATION_RESET, or as a code that names no command (R179). -/
theorem cmdWrite_cases (code : Word) (s : State) :
    (∃ p ∈ ownedCommands, cmdWrite code s = .next (takeCommand p.2.1 p.2.2 s)) ∨
    cmdWrite code s = execStationReset s.pins.straps s ∨ cmdWrite code s = .next (takeUnknown code s) := by
  by_cases hp : ∃ p ∈ ownedCommands, p.2.1 = code
  · obtain ⟨p, hp, rfl⟩ := hp
    refine .inl ⟨p, hp, ?_⟩
    revert p
    simp only [ownedCommands, List.forall_mem_cons, List.not_mem_nil, false_implies, implies_true, and_true]
    exact ⟨rfl, rfl, rfl, rfl, rfl, rfl, rfl, rfl, rfl, rfl, rfl, rfl, rfl⟩
  · refine .inr ?_
    have hne : ∀ p ∈ ownedCommands, ¬code = p.2.1 := fun p hm e => hp ⟨p, hm, e.symm⟩
    simp only [ownedCommands, List.forall_mem_cons, List.not_mem_nil, false_implies, implies_true, and_true] at hne
    unfold cmdWrite
    simp only [hne, if_false]
    split
    · exact .inl rfl
    · exact .inr rfl

theorem cmdWrite_requesterKept {s t : State} {code : Word} (h : cmdWrite code s = .next t) : RequesterKept s t := by
  rcases cmdWrite_cases code s with ⟨p, hp, he⟩ | he | he <;> rw [he] at h
  · cases h; exact ownedCommand_requesterKept p hp s
  · exact execStationReset_requesterKept h
  · cases h; exact .of_stay (takeUnknown_stays code s)

theorem execPortWordWrite_requesterKept {s t : State} {address : BitVec 24} {value : Word} {enables : BitVec 4}
    (h : execPortWordWrite address value enables s = .next t) : RequesterKept s t := by
  unfold execPortWordWrite at h
  split_ifs at h
  · exact cmdWrite_requesterKept h
  · cases h; exact .of_stay (portPop_stays s)
  · cases h; exact .of_stay (portEnable_stays _ _ s)
  · cases h; exact .of_stay (portArgument_stays _ _ _ s)

/-- Every command that leaves RESET# alone keeps the channels' laws and the requester side's predicate. -/
theorem exec_requesterKept {c : Instr} {s t : State} (hc : Instr.movesReset c = false) (h : exec c s = .next t) :
    RequesterKept s t := by
  have howned : ∀ p ∈ ownedCommands, .next (takeCommand p.2.1 p.2.2 s) = exec c s → RequesterKept s t := by
    intro p hp he
    rw [h] at he
    cases he
    exact ownedCommand_requesterKept p hp s
  simp only [ownedCommands, List.forall_mem_cons, List.not_mem_nil, false_implies, implies_true, and_true] at howned
  obtain ⟨hopen, hpark, hunpark, hclose, hgrants, hquery, hconsume, hload, hstart, habort, hclear, hcopy, hrestart⟩ :=
    howned
  cases c with
  | winOpen => exact hopen rfl
  | winPark => exact hpark rfl
  | winUnpark => exact hunpark rfl
  | winClose => exact hclose rfl
  | winGrants => exact hgrants rfl
  | winQuery => exact hquery rfl
  | mboxConsume => exact hconsume rfl
  | chLoad => exact hload rfl
  | chStart => exact hstart rfl
  | chAbort => exact habort rfl
  | chClear => exact hclear rfl
  | chQuery => exact hcopy rfl
  | lineRestart => exact hrestart rfl
  | stationReset straps => exact execStationReset_requesterKept h
  | unknownCommand value enables => exact cmdWrite_requesterKept h
  | noticePop value => cases h; exact .of_stay (portPop_stays s)
  | intEnable value enables => cases h; exact .of_stay (portEnable_stays _ _ s)
  | portWordWrite address value enables => exact execPortWordWrite_requesterKept h
  | resetAsserted straps => cases hc
  | resetReleased straps => cases hc
  | paceAsserted n => exact execPaceAsserted_requesterKept h
  | paceDeasserted n => cases h; exact .of_stay (pinned_stays s _)
  | lbgntAsserted => exact .of_stay (execLbgntAsserted_stays h)
  | lbgntDeasserted => exact .of_stay (execLbgntDeasserted_stays h)
  | lberr inCycle => exact execLberr_requesterKept h
  | busCycleComplete stores => exact execBusCycleComplete_requesterKept h
  | grantWaitExpiry => exact execGrantWaitExpiry_requesterKept h
  | startOpportunity =>
    exact ⟨channelInv_congr (execStartOpportunity_channels h), fun _ => execStartOpportunity_requests h⟩
  | startMark seen => cases h; exact .of_stay (execStartMark_stays seen s)
  | roundLost => exact ⟨fun hi => execRoundLost_channelInv hi h, fun _ => execRoundLost_requests h⟩
  | roundWon => exact ⟨fun hi => execRoundWon_channelInv hi h, fun _ => execRoundWon_requests h⟩
  | frameCrcReceived conds => exact execFrameCrcReceived_requesterKept h
  | frameEnd conds => exact .of_stay (execFrameEnd_stays h)
  | sentFrameEnd slot => exact ⟨fun hi => execSentFrameEnd_channelInv hi h, fun _ => execSentFrameEnd_requests h⟩
  | clash => exact ⟨fun hi => execClash_channelInv hi h, fun _ => execClash_requests h⟩
  | joiningTimerExpiry => exact .of_stay (execJoiningTimerExpiry_stays h)
  | responseTimerExpiry entry => exact execResponseTimerExpiry_requesterKept h
  | holdTimerExpiry entry => exact execHoldTimerExpiry_requesterKept h
  | formation => exact execFormation_requesterKept h
  | signalFormation => exact execSignalFormation_requesterKept h

/-- A release of RESET# touches no channel record, and a part that was held in reset starts as a reset part (R185). -/
theorem execResetReleased_requester {s t : State} {straps : Station} (h : execResetReleased straps s = .next t) :
    (ChannelInv s → ChannelInv t) ∧ (HeldInv s → RequestsOk s → RequestsOk t) := by
  unfold execResetReleased at h
  split at h <;> cases h
  · rename_i hr
    refine ⟨fun hc => ?_, fun hheld _ => beginStart_requests (hheld hr) straps⟩
    rw [beginStart_eq]
    exact hc
  · exact ⟨id, fun _ => id⟩

theorem exec_requester {c : Instr} {s t : State} (h : exec c s = .next t) :
    (ChannelInv s → ChannelInv t) ∧ (HeldInv s → LineCore s → RequestsOk s → RequestsOk t) := by
  cases hc : Instr.movesReset c with
  | false => exact ⟨(exec_requesterKept hc h).channels, fun _ => (exec_requesterKept hc h).requests⟩
  | true =>
    cases c <;> simp only [Instr.movesReset, Bool.false_eq_true] at hc
    case resetAsserted straps =>
      exact ⟨(execResetAsserted_requesterKept h).channels, fun _ => (execResetAsserted_requesterKept h).requests⟩
    case resetReleased straps =>
      obtain ⟨hch, hreq⟩ := execResetReleased_requester h
      exact ⟨hch, fun hheld _ => hreq hheld⟩

theorem step_requester {s t : State} (h : step s = .next t) :
    (ChannelInv s → ChannelInv t) ∧ (HeldInv s → LineCore s → RequestsOk s → RequestsOk t) := by
  unfold step at h
  split at h
  · cases h; exact ⟨id, fun _ _ => id⟩
  · rename_i c rest _
    exact exec_requester (s := { s with pending := rest }) h

/-- Settles O56: a record changes by CH_LOAD, CH_START, CH_CLEAR, an abort, a formation, a PACE input, a completion, a
failure or a halt's end, and each of these keeps the laws of the record (`ChannelOk`); no other event touches one. -/
theorem channelsKeepLaws : Obligations.ChannelsKeepLaws := by
  unfold Obligations.ChannelsKeepLaws
  intro s t hs h
  exact (step_requester h).1 hs

/-- Settles O57: an event of the requester side takes one entry out of its place (`Loose`) and puts it in the place that
its new state calls for, or frees it with a report that its owner counts off (`Owing`); a halt and an abort release
several at once (`Releases`), and every other event leaves the entries and the frame in hand alone (`RequestsStay`). -/
theorem requestsStayOwned : Obligations.RequestsStayOwned := by
  unfold Obligations.RequestsStayOwned
  rintro s t ⟨hline, hs⟩ h
  obtain ⟨hheld, hcore⟩ := (lineInv_iff s).mp hline
  obtain ⟨hheld', hline', -⟩ := step_invariants hheld h
  exact ⟨(lineInv_iff t).mpr ⟨hheld', hline' hcore⟩, (step_requester h).2 hheld hcore hs⟩

end Sys2Proof.Machine
end

section
/-! The channel commands through the port: what a taken one makes of its record, and what a refused one answers. -/

namespace Sys2Proof.Machine

/-! ### A channel command through the port (R67, R179) -/

section
variable {s : State} (hr : Ready s) {c : Fin 8} (hc : argChannel s = c.val) {taken : ChannelState → Bool} (code : Word)
  (act : Fin 8 → Channel → State → State × Result)

include hr hc in
/-- A channel command in a state that it is taken in acts on its record, and its result goes to RESULT. -/
theorem takeCommand_channel_taken (ht : taken s.channels[c].state = true) : takeCommand code (onChannel taken act) s =
    { (act c s.channels[c] { s with cmd := code }).1 with
      result := (act c s.channels[c] { s with cmd := code }).2 } := by
  have hlt : argChannel s < 8 := hc ▸ c.isLt
  obtain rfl : c = ⟨argChannel s, hlt⟩ := Fin.ext hc.symm
  rw [takeCommand_ready hr, onChannel_taken (s := { s with cmd := code }) hlt ht]
  rfl

include hr hc in
theorem takeCommand_channel_wrongState (ht : taken s.channels[c].state = false) :
    takeCommand code (onChannel taken act) s = s.answered code .wrongState := by
  have hlt : argChannel s < 8 := hc ▸ c.isLt
  obtain rfl : c = ⟨argChannel s, hlt⟩ := Fin.ext hc.symm
  rw [takeCommand_ready hr, onChannel_wrongState (s := { s with cmd := code }) hlt ht]
  rfl

include hr in
theorem takeCommand_channel_badArg (h : 8 ≤ argChannel s) :
    takeCommand code (onChannel taken act) s = s.answered code .badArg := by
  rw [takeCommand_ready hr, onChannel_badArg (s := { s with cmd := code }) h]
  rfl

/-! ### CH_LOAD (R68, R69) -/

include hr hc in
/-- CH_LOAD in a state that it is taken in, by what its checks say. -/
theorem chLoad_taken (hst : s.channels[c].state.loadable = true) : exec .chLoad s =
    .next (if loadAccepted s.loader.number c (loadArgs s) = true then
      (s.answered 16 .done).setChannel c (loadedChannel (loadArgs s)) else s.answered 16 .badArg) := by
  refine congrArg _ ((takeCommand_channel_taken hr hc 16 _ hst).trans ?_)
  dsimp only
  by_cases hacc : loadAccepted s.loader.number c (loadArgs s) = true
  · have hacc' : loadAccepted s.loader.number c (loadArgs { s with cmd := 16 }) = true := hacc
    simp only [if_pos hacc, if_pos hacc']
    rfl
  · have hacc' : ¬loadAccepted s.loader.number c (loadArgs { s with cmd := 16 }) = true := hacc
    simp only [if_neg hacc, if_neg hacc']
    rfl

end

/-- The arguments stand where R198 puts them. -/
theorem loadArgs_eq (s : State) : loadArgs s =
    { target := (s.args[0].extractLsb' 8 8).toNat, window := (s.args[0].extractLsb' 16 8).toNat
      direction := (s.args[0].extractLsb' 24 2).toNat, mailbox := s.args[0].getLsbD 26
      reload := s.args[0].getLsbD 27, pacing := s.args[0].getLsbD 28, signalPresent := s.args[0].getLsbD 29
      remote := s.args[1].toNat, local' := s.args[2].toNat, count := s.args[3].toNat
      frameSize := (s.args[4].extractLsb' 0 8).toNat, depth := (s.args[4].extractLsb' 8 8).toNat
      signalValue := s.args[5] } := by
  unfold loadArgs
  simp only [wordField_eq]
  rfl

/-- Settles O14: the arguments pass every check, so the record is filled; each field of an argument word is its bits. -/
theorem chLoadFillsRecord : Obligations.ChLoadFillsRecord := by
  unfold Obligations.ChLoadFillsRecord
  refine ⟨?_, fun s => ⟨wordField_eq _ _ _, loadArgs_eq s⟩⟩
  rintro s c a hr hc rfl hst hdir htarget hown hwindow hremote hlocal hcount hsignal hf1 hf64 hd1 hd4 hpacing hmailbox
    hlocalEnd hremoteEnd
  have hacc : loadAccepted s.loader.number c (loadArgs s) = true :=
    (loadAccepted_iff _ _ _).mpr ⟨hdir, htarget, hown, hwindow, hremote, hlocal, hcount, hsignal, hf1, hf64, hd1, hd4,
      hpacing, fun hm => by rw [hmailbox hm]; decide, hlocalEnd, hremoteEnd⟩
  rw [chLoad_taken hr hc ((loadable_iff _).mpr hst), if_pos hacc]
  rfl

/-! ### CH_START and CH_CLEAR (R70, R71) -/

/-- Settles O15: CH_START goes by the initial count, and CH_CLEAR takes the fault fields with it. -/
theorem chStartAndClear : Obligations.ChStartAndClear := by
  unfold Obligations.ChStartAndClear
  intro s c hr hc
  have hstart : s.channels[c].state = .ready → exec .chStart s = .next ((s.answered 17 .done).setChannel c
      { s.channels[c] with state := if s.channels[c].initialCount = 0 then .signalling else .running }) := fun hst =>
    congrArg _ (takeCommand_channel_taken hr hc 17 _ (by rw [hst]; rfl))
  refine ⟨fun hst hcount => ?_, fun hst hcount => ?_, fun hst => ?_⟩
  · rw [hstart hst, if_neg hcount.ne']
  · rw [hstart hst, if_pos hcount]
  · exact congrArg _ (takeCommand_channel_taken hr hc 19 _ (by simpa using hst))

/-! ### Refusals (R67, R68, R70) -/

/-- Settles O17: the channel argument and the record's state are checked alike for all five commands, and CH_LOAD's own
checks come after. -/
theorem channelCommandsRefused : Obligations.ChannelCommandsRefused := by
  unfold Obligations.ChannelCommandsRefused
  refine fun s hr => ⟨fun p hp harg => ?badArg, fun p hp c hc hst => ?wrongState, ?load⟩
  case badArg =>
    simp only [channelCommands, List.mem_cons, List.not_mem_nil, or_false] at hp
    rcases hp with rfl | rfl | rfl | rfl | rfl
    all_goals exact congrArg _ (takeCommand_channel_badArg hr _ _ harg)
  case wrongState =>
    simp only [channelCommands, List.mem_cons, List.not_mem_nil, or_false] at hp
    rcases hp with rfl | rfl | rfl | rfl | rfl
    all_goals
      refine congrArg _ (takeCommand_channel_wrongState hr hc _ _ ?_)
      revert hst
      generalize s.channels[c].state = st
      cases st <;> decide
  case load =>
    rintro c a hc rfl hst hbad
    have hst' : s.channels[c].state.loadable = true := (loadable_iff _).mpr (by simpa using hst)
    rw [chLoad_taken hr hc hst', if_neg]
    intro hacc
    obtain ⟨hdir, htarget, hown, hwindow, hremote, hlocal, hcount, hsignal, hf1, hf64, hd1, hd4, hpacing, hmailbox,
      hlocalEnd, hremoteEnd⟩ := (loadAccepted_iff _ _ _).mp hacc
    rcases hbad with h | h | h | h | h | h | h | ⟨h0, hnone⟩ | h | h | h | h | ⟨hp, h4⟩ | ⟨hm, h1⟩ | h | h
    case inr.inr.inl => exact hown h
    case inr.inr.inr.inr.inr.inr.inr.inl => rw [hsignal h0] at hnone; cases hnone
    case inr.inr.inr.inr.inr.inr.inr.inr.inr.inr.inr.inr.inl => exact absurd (hpacing hp) (by omega)
    case inr.inr.inr.inr.inr.inr.inr.inr.inr.inr.inr.inr.inr.inl => exact hmailbox hm h1
    all_goals omega

end Sys2Proof.Machine
end

section
/-! The arbiter's choice, what a formation makes of it, and the PACE inputs. -/

namespace Sys2Proof.Machine

/-! ### The lowest-numbered one (R75, R98) -/

/-- The first index that passes is the least that does. -/
theorem find?_finRange_eq_some_iff {n : Nat} {p : Fin n → Bool} {i : Fin n} :
    (List.finRange n).find? p = some i ↔ p i = true ∧ ∀ k, p k = true → i.val ≤ k.val := by
  rw [List.find?_eq_some_iff_getElem]
  refine and_congr_right fun hp => ⟨?_, fun hleast => ⟨i.val, by simp, by simp, fun k hk => ?_⟩⟩
  · rintro ⟨m, hm, he, hbefore⟩ k hk
    rw [List.getElem_finRange] at he
    by_contra hlt
    have := hbefore k.val (by rw [← he] at hlt; simpa using hlt)
    simp [hk] at this
  · rw [Bool.not_eq_true', ← Bool.not_eq_true]
    intro hpk
    have := hleast _ hpk
    simp at this
    omega

theorem freeIndex_eq_some_iff {s : State} {i : Fin 16} : freeIndex s = some i ↔
    s.entries[i].state = .free ∧ ∀ k : Fin 16, k.val < i.val → s.entries[k].state ≠ .free := by
  rw [freeIndex, find?_finRange_eq_some_iff]
  simp only [beq_iff_eq]
  exact and_congr_right fun _ => forall_congr' fun k => ⟨fun h hk he => absurd (h he) (by omega), fun h he => by
    by_contra hk
    exact h (by omega) he⟩

theorem freeIndex_isSome_iff {s : State} : (freeIndex s).isSome = true ↔ ∃ i : Fin 16, s.entries[i].state = .free := by
  simp [freeIndex]

/-- Channels 0 to 3 have a PACE input each, and the others none (R81). -/
theorem paceLevel_iff {s : State} {c : Fin 8} :
    paceLevel s c = true ↔ ∃ n : Fin 4, n.val = c.val ∧ s.pins.pace[n] = true := by
  unfold paceLevel
  rw [List.getD_eq_getElem?_getD]
  constructor
  · intro h
    by_cases hc : c.val < 4
    · exact ⟨⟨c.val, hc⟩, rfl, by simpa [hc] using h⟩
    · simp [hc] at h
  · rintro ⟨n, hn, hp⟩
    have hc : c.val < 4 := hn ▸ n.isLt
    obtain rfl : n = ⟨c.val, hc⟩ := Fin.ext hn
    simpa [hc] using hp

/-- The channel nearest upward from the one after the pointer (R75). -/
theorem find?_arbiterOrder_eq_some_iff {p : Fin 8 → Bool} {q c : Fin 8} :
    (arbiterOrder q).find? p = some c ↔ p c = true ∧ ∀ d, p d = true → (c - q - 1).val ≤ (d - q - 1).val := by
  have hplace : ∀ k : Fin 8, q + 1 + k - q - 1 = k := fun k => by abel
  have hchannel : ∀ d : Fin 8, q + 1 + (d - q - 1) = d := fun d => by abel
  rw [arbiterOrder, List.find?_map, Option.map_eq_some_iff]
  constructor
  · rintro ⟨k, hk, rfl⟩
    obtain ⟨hp, hleast⟩ := find?_finRange_eq_some_iff.mp hk
    refine ⟨hp, fun d hd => ?_⟩
    rw [hplace]
    exact hleast _ (by rw [Function.comp_apply, hchannel]; exact hd)
  · rintro ⟨hp, hleast⟩
    refine ⟨c - q - 1, find?_finRange_eq_some_iff.mpr ⟨?_, fun k hk => ?_⟩, hchannel c⟩
    · rw [Function.comp_apply, hchannel]
      exact hp
    · have := hleast _ hk
      rwa [hplace] at this

/-- Settles O18: the conditions as they stand in R74 and R84, and the choice and the free index as the first that pass in
their orders. -/
theorem arbiterServesInTurn : Obligations.ArbiterServesInTurn := by
  unfold Obligations.ArbiterServesInTurn
  refine fun s => ⟨fun c => ?_, fun c => ?_, fun c => ?_, fun i => freeIndex_eq_some_iff⟩
  · rw [eligibleData_iff, freeIndex_isSome_iff, paceLevel_iff]
    rfl
  · rw [eligibleSignal_iff, freeIndex_isSome_iff]
  · rw [arbiterChoice, find?_arbiterOrder_eq_some_iff]
    simp only [Bool.or_eq_true]

/-! ### The PACE inputs (R81, R87) -/

/-- Settles O20: the input's channel is armed where its record waits for the input, and is otherwise left as it was. -/
theorem paceInputsArmChannels : Obligations.PaceInputsArmChannels := by
  unfold Obligations.PaceInputsArmChannels
  intro s n c hc
  obtain rfl : c = pacedChannel n := Fin.ext hc
  have hexec : s.pins.pace[n] = false → exec (.paceAsserted n) s =
      .next (({ s with pins := { s.pins with pace := s.pins.pace.set n true } }).setChannel (pacedChannel n)
        s.channels[pacedChannel n].afterAssertion) := fun hlow => if_neg (by rw [hlow]; decide)
  refine ⟨fun hlow hpaced hst harmed => ?_, fun hlow hother => ?_, fun hhigh => if_pos hhigh, rfl⟩
  · rw [hexec hlow, Channel.afterAssertion, if_pos ⟨hpaced, hst, harmed⟩]
  · have hsame : s.channels[pacedChannel n].afterAssertion = s.channels[pacedChannel n] := by
      refine if_neg ?_
      rintro ⟨hpaced, hst, harmed⟩
      rcases hother with h | h | h
      · rw [hpaced] at h; cases h
      · exact h hst
      · rw [harmed] at h; cases h
    have hset : s.channels.set (pacedChannel n) s.channels[pacedChannel n] = s.channels := Vector.set_getElem_self _
    rw [hexec hlow, hsame, State.setChannel, hset]

/-! ### Formation (R76 to R78, R84, R98, R100) -/

/-- The responder side holds at most one buffer for each slot (R146, R147). -/
theorem responderHeld_le {s : State} (hpool : PoolInv s) : responderHeld s ≤ 8 := by
  obtain ⟨-, hop, -⟩ := hpool
  have hslot : ∀ b : Fin 24, ∃ k, s.buffers[b].onResponderSide = true → s.buffers[b].owner = some (.operation k) := by
    intro b
    unfold Buffer.onResponderSide
    split
    case h_2 k hk => exact ⟨k, fun _ => hk⟩
    all_goals exact ⟨0, nofun⟩
  choose slot hslot using hslot
  have hlist : s.buffers.toList = (List.finRange 24).map fun b => s.buffers[b] := by
    refine List.ext_getElem (by simp) fun n h h' => ?_
    simp
  rw [responderHeld, hlist, List.countP_map, List.countP_eq_length_filter]
  have hnodup : (((List.finRange 24).filter fun b => s.buffers[b].onResponderSide).map slot).Nodup := by
    refine ((List.nodup_finRange 24).filter _).map_on fun b hb b' hb' he => ?_
    have hown := hslot b (List.mem_filter.mp hb).2
    have hown' := hslot b' (List.mem_filter.mp hb').2
    rw [← he] at hown'
    exact Option.some.inj (((hop b _).mp hown).symm.trans ((hop b' _).mp hown'))
  have hlen := hnodup.length_le_card
  rw [List.length_map, Fintype.card_fin] at hlen
  exact hlen

/-- Below its cap the requester side leaves a buffer free (R147). -/
theorem freeBuffer_of_requesterHeld {s : State} (hpool : PoolInv s) (hroom : requesterHeld s < 16) :
    ∃ b, freeBuffer s = some b ∧ s.buffers[b].owner = none := by
  cases hb : freeBuffer s with
  | some b => exact ⟨b, rfl, Option.isNone_iff_eq_none.mp
      (List.find?_some (p := fun b : Fin 24 => s.buffers[b].owner.isNone) hb)⟩
  | none =>
    have howned : ∀ b ∈ s.buffers.toList, b.owner ≠ none := by
      intro b hm
      obtain ⟨n, hn, rfl⟩ := List.mem_iff_getElem.mp hm
      have hn' : n < 24 := by simpa using hn
      have := List.find?_eq_none.mp hb ⟨n, hn'⟩ (List.mem_finRange _)
      intro he
      exact this (Option.isNone_iff_eq_none.mpr he)
    have hsides : responderHeld s = s.buffers.toList.countP fun b => !b.onRequesterSide := by
      refine List.countP_congr fun b hm => ?_
      have := howned b hm
      unfold Buffer.onResponderSide Buffer.onRequesterSide
      split <;> simp_all
    have hall := List.length_eq_countP_add_countP Buffer.onRequesterSide (l := s.buffers.toList)
    have hresponder := responderHeld_le hpool
    have hlen : s.buffers.toList.length = 24 := Vector.length_toList
    have hnot : (fun b : Buffer => decide ¬b.onRequesterSide = true) = fun b => !b.onRequesterSide := by
      funext b
      cases b.onRequesterSide <;> rfl
    rw [hnot, ← hsides, hlen] at hall
    unfold requesterHeld at hroom
    omega

theorem queueRequester_queued (s : State) (j : Job) : RequesterQueued s (s.queueRequester j) j := by
  refine ⟨fun hn => ?_, fun hn hr hq => ?_⟩
  · obtain ⟨j', hj⟩ := Option.ne_none_iff_exists'.mp hn
    simp [State.queueRequester, State.selectJob, hj]
  · cases hg : s.pins.lbgnt <;>
      simp [State.queueRequester, State.selectJob, State.startJob, hn, hr, hq, hg, engineStarted, grantLimit]

/-- A formation for a data request, with the buffer that the Pool gives. -/
theorem formation_data {s : State} {c : Fin 8} {i : Fin 16} (hchoice : arbiterChoice s = some c)
    (hel : eligibleData s c = true) (hfree : freeIndex s = some i) : exec .formation s = .next (s.formData c i) := by
  show execFormation s = _
  simp only [execFormation, hchoice, hfree, hel, if_true]

theorem formation_signal {s : State} {c : Fin 8} {i : Fin 16} (hchoice : arbiterChoice s = some c)
    (hel : eligibleSignal s c = true) (hfree : freeIndex s = some i) :
    exec .signalFormation s = .next (s.formSignal c i) := by
  show execSignalFormation s = _
  simp only [execSignalFormation, hchoice, hfree, hel, if_true]

end Sys2Proof.Machine
end

section
/-! The formation of a data request and of a completion signal, part by part. -/

namespace Sys2Proof.Machine

/-- The entry of a data request by the direction of its channel (R100). -/
theorem dataEntry_eq (e : Entry) (c : Fin 8) (r : Channel) (b : Option (Fin 24)) : dataEntry e c r b =
    { state := if r.direction = .push then .staging else .queued, epoch := e.epoch + 1
      owner := some c, kind := if r.direction = .push then .put else .get, target := r.target
      window := r.window, mailbox := r.mailbox, remoteOffset := r.currentRemote
      localAddress := r.currentLocal, length := r.nextLength, signalValue := 0, buffer := b
      retry := 0, hold := 0, timer := .stopped } := by
  unfold dataEntry
  cases r.direction <;> rfl

theorem launch_put {s : State} {i : Fin 16} {e : Entry} (h : e.kind = .put) :
    s.launch i e = s.queueRequester (stagingJob i e) := by
  simp only [State.launch, h]

theorem launch_queued {s : State} {i : Fin 16} {e : Entry} (h : e.kind ≠ .put) :
    s.launch i e = { s with requestQueue := s.requestQueue ++ [i] } := by
  unfold State.launch
  split
  · exact absurd ‹_› h
  all_goals rfl

/-- The state in which a data request has its entry, its buffer and its channel's advance, before it goes on. -/
def State.dataFormed (s : State) (c : Fin 8) (i : Fin 16) (b : Fin 24) : State :=
  { s with
    pointer := c
    buffers := s.buffers.set b { s.buffers[b] with owner := some (.entry i) }
    channels := s.channels.set c s.channels[c].afterFormation
    entries := s.entries.set i (dataEntry s.entries[i] c s.channels[c] (some b)) }

theorem formData_eq {s : State} {b : Fin 24} (c : Fin 8) (i : Fin 16) (hb : freeBuffer s = some b) :
    s.formData c i = (s.dataFormed c i b).launch i (dataEntry s.entries[i] c s.channels[c] (some b)) := by
  unfold State.formData
  rw [hb]
  rfl

/-- The staging read of a PUSH is queued, or started by an idle engine (R77). -/
theorem formData_push {s : State} {b : Fin 24} {c : Fin 8} (i : Fin 16) (hb : freeBuffer s = some b)
    (hd : s.channels[c].direction = .push) : (∃ e, s.formData c i = (s.dataFormed c i b).setEngine e) ∧
      RequesterQueued s (s.formData c i)
        ⟨.read, .requester, s.channels[c].currentLocal, s.channels[c].nextLength, some b, .entry i, .listed, 0, none,
          false⟩ := by
  rw [formData_eq c i hb, launch_put (by simp only [dataEntry, hd])]
  exact ⟨queueRequester_eq _ _, queueRequester_queued (s.dataFormed c i b)
    (stagingJob i (dataEntry s.entries[i] c s.channels[c] (some b)))⟩

/-- A PULL's entry joins the Request Queue (R78). -/
theorem formData_pull {s : State} {b : Fin 24} {c : Fin 8} (i : Fin 16) (hb : freeBuffer s = some b)
    (hd : s.channels[c].direction = .pull) :
    s.formData c i = { s.dataFormed c i b with requestQueue := s.requestQueue ++ [i] } := by
  rw [formData_eq c i hb, launch_queued (by simp only [dataEntry, hd]; decide)]
  rfl

/-- Settles O19: the Pool has a buffer for an eligible channel, and the formed request goes on by its direction; a signal
takes no buffer and goes to the Request Queue. -/
theorem formationsMakeRequests : Obligations.FormationsMakeRequests := by
  unfold Obligations.FormationsMakeRequests
  refine ⟨?data, ?signal⟩
  case data =>
    rintro s c i r len hpool hchoice hel hfree rfl rfl
    obtain ⟨-, -, -, -, -, hroom⟩ := (eligibleData_iff s c).mp hel
    obtain ⟨b, hb, hnone⟩ := freeBuffer_of_requesterHeld hpool hroom
    have hentry := congrArg (s.entries.set i) (dataEntry_eq s.entries[i] c s.channels[c] (some b))
    refine ⟨s.formData c i, b, formation_data hchoice hel hfree, ?_⟩
    obtain hd | hd : s.channels[c].direction = .push ∨ s.channels[c].direction = .pull := by
      cases s.channels[c].direction <;> simp
    · obtain ⟨⟨e, he⟩, hqueued⟩ := formData_push i hb hd
      rw [he] at hqueued ⊢
      refine ⟨rfl, rfl, hnone, rfl, rfl, hentry, fun _ => ⟨rfl, hqueued⟩, fun h => ?_⟩
      rw [hd] at h
      cases h
    · rw [formData_pull i hb hd]
      refine ⟨rfl, rfl, hnone, rfl, rfl, hentry, fun h => ?_, fun _ => ⟨rfl, rfl⟩⟩
      rw [hd] at h
      cases h
  case signal =>
    intro s c i value hchoice hst hlive hsignal hfree
    have hel := (eligibleSignal_iff s c).mpr ⟨hst, hlive, by rw [hfree]; rfl⟩
    rw [formation_signal hchoice hel hfree, State.formSignal, launch_queued (by rw [signalEntry]; simp)]
    have hchannel : { s.channels[c] with live := s.channels[c].live + 1 } = { s.channels[c] with live := 1 } := by
      rw [hlive]
    have hentry : signalEntry s.entries[i] c s.channels[c] =
        { state := .queued, epoch := s.entries[i].epoch + 1, owner := some c, kind := .signal
          target := s.channels[c].target, window := 0, mailbox := false, remoteOffset := 0, localAddress := 0
          length := 0, signalValue := value, buffer := none, retry := 0, hold := 0, timer := .stopped } := by
      rw [signalEntry, hsignal]
      rfl
    rw [hchannel, hentry]
    rfl

end Sys2Proof.Machine
end

section
/-! A DONE with outcome OK that matches its entry. -/

namespace Sys2Proof.Machine

/-! ### A completed entry by its owner's state (R83 to R86, R90) -/

section
variable {s : State} {c : Fin 8} (i : Fin 16)

theorem entryCompleted_lowered (h : s.channels[c].state = .running ∨ s.channels[c].state = .finishing ∧
    1 < s.channels[c].live) : s.entryCompleted i c =
      (s.entryFreed i).setChannel c { s.channels[c] with live := s.channels[c].live - 1 } := by
  unfold State.entryCompleted
  rcases h with hst | ⟨hst, hmore⟩
  · simp only [hst]
  · simp only [hst, if_pos hmore]

theorem entryCompleted_signalled (hst : s.channels[c].state = .finishing) (hone : s.channels[c].live = 1)
    (hsignal : s.channels[c].signal.isSome = true) : s.entryCompleted i c =
      (s.entryFreed i).setChannel c { s.channels[c] with live := 0, state := .signalling } := by
  have hlast : ¬1 < s.channels[c].live := by omega
  unfold State.entryCompleted
  simp only [hst, if_neg hlast, if_pos hsignal]

theorem entryCompleted_ended (hone : s.channels[c].live = 1) (h : s.channels[c].state = .signalling ∨
    s.channels[c].state = .finishing ∧ s.channels[c].signal = none) : s.entryCompleted i c =
      ((s.entryFreed i).setChannel c (passEnded s.channels[c])).post (.channelEnd c s.channels[c].reload) := by
  have hlast : ¬1 < s.channels[c].live := by omega
  unfold State.entryCompleted
  rcases h with hst | ⟨hst, hnone⟩
  · simp only [hst]
  · have hsignal : ¬s.channels[c].signal.isSome = true := by rw [hnone]; decide
    simp only [hst, if_neg hlast, if_neg hsignal]

theorem entryCompleted_halting (hst : s.channels[c].state = .halting) :
    s.entryCompleted i c = s.settledInHalt i c := by
  unfold State.entryCompleted
  simp only [hst]

end

/-- A DONE OK of the entry's epoch completes an entry that is not a GET's (R109, R110). -/
theorem takeAnswer_doneOk {s : State} {tag : Tag} {i : Fin 16} {c : Fin 8} (hi : i.val = tag.entry.toNat)
    (hepoch : s.entries[i].epoch = tag.epoch)
    (hst : s.entries[i].state = .queued ∨ s.entries[i].state = .sent ∨ s.entries[i].state = .holding)
    (hkind : s.entries[i].kind ≠ .get) (ho : s.entries[i].owner = some c) :
    s.takeAnswer (.done tag .ok) = (unlisted s i).entryCompleted i c := by
  obtain rfl : tagEntry tag = i := tagEntry_eq hi
  have hsuits : (Answer.done tag .ok).suits s.entries[tagEntry tag] = true := by
    unfold Answer.suits
    cases hk : s.entries[tagEntry tag].kind
    case get => exact absurd hk hkind
    all_goals rfl
  have hmatch : answerMatches s (.done tag .ok) = true := by
    rw [answerMatches, Bool.and_eq_true, Bool.and_eq_true]
    exact ⟨⟨beq_iff_eq.mpr hepoch, (matchable_iff _).mpr hst⟩, hsuits⟩
  have ho' : (s.unqueue (tagEntry tag)).entries[tagEntry tag].owner = some c := by
    rw [State.unqueue, setEntry_get_self]
    exact ho
  rw [State.takeAnswer, if_pos hmatch, State.settleDone, completeEntry_eq ho', unqueue_entryCompleted]

/-- Settles O37: the answer matches its entry, and the completion goes by the state of the owner. -/
theorem doneOkCompletesEntry : Obligations.DoneOkCompletesEntry := by
  unfold Obligations.DoneOkCompletesEntry
  rintro s conds f tag i c r u v hrec hbody hi hepoch hst hkind ho rfl rfl rfl
  have hans : frameAnswer f = some (.done tag .ok) := by
    rw [frameAnswer_done hbody]
    rfl
  have hreq : frameRequest f = none := by
    unfold frameRequest
    rw [hbody]
  have hexec := frameCrcReceived_answer hrec (by rw [hbody]; rfl) hreq hans
  have hst' : s.entries[i].state = .queued ∨ s.entries[i].state = .sent ∨ s.entries[i].state = .holding :=
    or_left_comm.mp hst
  rw [takeAnswer_doneOk hi hepoch hst' hkind ho, ← setLine_entryCompleted] at hexec
  refine ⟨fun h => ?_, fun hfin hone hsignal => ?_, fun hone h => ?_, fun hhalt => ?_⟩
  · exact hexec.trans (congrArg _ (entryCompleted_lowered i h))
  · exact hexec.trans (congrArg _ (entryCompleted_signalled i hfin hone hsignal))
  · exact hexec.trans (congrArg _ (entryCompleted_ended i hone h))
  · exact hexec.trans (congrArg _ (entryCompleted_halting i hhalt))

end Sys2Proof.Machine
end

section
/-! CH_ABORT: the channel faulted, and its entries freed or released by their states. -/

namespace Sys2Proof.Machine

/-! ### What the release does with each entry, job and buffer (R93, R134, R158) -/

theorem jobListed_iff_exists (s : State) (i : Fin 16) :
    jobListed s i = true ↔ ∃ j ∈ s.engine.requester, j.owner = .entry i := by
  simp [jobListed]

theorem jobListed_eq_false_iff (s : State) (i : Fin 16) :
    jobListed s i = false ↔ ∀ j ∈ s.engine.requester, j.owner ≠ .entry i := by
  simp [jobListed]

section
variable {s : State} {c : Fin 8} {i : Fin 16} (h : EntryLaws s i)
include h

/-- An owned entry is freed where nothing of it is under way. -/
theorem abortRelease_free (ho : s.entries[i].owner = some c) (hst : s.entries[i].state = .sent ∨
    s.entries[i].state = .holding ∨
    (s.entries[i].state = .staging ∨ s.entries[i].state = .landing) ∧ (∃ j ∈ s.engine.requester, j.owner = .entry i) ∨
    s.entries[i].state = .queued ∧ inHand s i = false) : abortRelease s c i = .free := by
  rw [← jobListed_iff_exists] at hst
  refine abortRelease_free_iff.mpr ⟨ho, hst.imp_right (Or.imp_right (Or.imp_right ?_))⟩
  rintro ⟨hq, hhand⟩
  exact ⟨hq, ((entryLaws_places h).2.1 hq).2.trans hhand⟩

/-- An owned entry is RELEASING where its frame or its job is under way (R117). -/
theorem abortRelease_releasing (ho : s.entries[i].owner = some c) (hst : s.entries[i].state = .sending ∨
    (s.entries[i].state = .staging ∨ s.entries[i].state = .landing) ∧ (∀ j ∈ s.engine.requester, j.owner ≠ .entry i) ∨
    s.entries[i].state = .queued ∧ inHand s i = true) : abortRelease s c i = .releasing := by
  rw [← jobListed_eq_false_iff] at hst
  refine abortRelease_releasing_iff.mpr ⟨ho, hst.imp_right (Or.imp_right ?_)⟩
  rintro ⟨hq, hhand⟩
  exact ⟨hq, ((entryLaws_places h).2.1 hq).2.trans hhand⟩

end

theorem afterRelease_held {f : Fin 16 → Release} {b : Buffer} {i : Fin 16} (h : b.owner = some (.entry i)) :
    Buffer.afterRelease f b = if f i = .free then { b with owner := none } else b := by
  unfold Buffer.afterRelease
  rw [h]

theorem afterRelease_other {f : Fin 16 → Release} {b : Buffer} (h : ∀ i, b.owner ≠ some (.entry i)) :
    Buffer.afterRelease f b = b := by
  unfold Buffer.afterRelease
  split
  · exact absurd ‹_› (h _)
  all_goals rfl

/-- The entries that are kept are those of other owners. -/
theorem abortRelease_beq_keep {s : State} {c : Fin 8} {i : Fin 16} (h : EntryLaws s i) :
    (abortRelease s c i == .keep) = (s.entries[i].owner != some c) := by
  rw [Bool.eq_iff_iff, beq_iff_eq, bne_iff_ne, abortRelease_keep_iff h]

/-! ### The command (R92) -/

/-- The fault fields that an abort reports, by the state of the channel. -/
theorem abort_reports {r : Channel} {offset : Nat} {atSignal : Bool}
    (h : (r.state = .running ∨ r.state = .finishing) ∧ offset = r.currentRemote ∧ atSignal = false ∨
      r.state = .signalling ∧ offset = r.currentRemote ∧ atSignal = true ∨
      r.state = .halting ∧ offset = r.faultOffset ∧ atSignal = r.faultAtSignal) :
    r.state.active = true ∧ abortOffset r = offset ∧ abortAtSignal r = atSignal := by
  unfold abortOffset abortAtSignal
  rcases h with ⟨hst | hst, rfl, rfl⟩ | ⟨hst, rfl, rfl⟩ | ⟨hst, rfl, rfl⟩ <;> rw [hst] <;> exact ⟨rfl, rfl, rfl⟩

/-- The state after an abort of channel `c`. -/
def State.aborted (s : State) (c : Fin 8) (offset : Nat) (atSignal : Bool) : State :=
  (((s.answered 18 .done).releaseEntries (abortRelease s c)).setChannel c
    { s.channels[c] with
      state := .faulted, faultCode := .aborted, faultOffset := offset, faultAtSignal := atSignal, live := 0 }).post
    (.channelFault c .aborted offset atSignal)

theorem chAbort_taken {s : State} (hr : Ready s) {c : Fin 8} (hc : argChannel s = c.val)
    (hst : s.channels[c].state.active = true) : exec .chAbort s =
      .next (s.aborted c (abortOffset s.channels[c]) (abortAtSignal s.channels[c])) :=
  congrArg _ (takeCommand_channel_taken hr hc 18 _ hst)

section
variable (s : State) (c : Fin 8) (offset : Nat) (atSignal : Bool)

theorem aborted_entry (i : Fin 16) :
    (s.aborted c offset atSignal).entries[i] = s.entries[i].afterRelease (abortRelease s c i) := by
  rw [State.aborted, State.post_entries, State.setChannel_entries, releaseEntries_entry]
  rfl

theorem aborted_buffer (b : Fin 24) :
    (s.aborted c offset atSignal).buffers[b] = Buffer.afterRelease (abortRelease s c) s.buffers[b] := by
  rw [State.aborted, State.post_buffers, State.setChannel_buffers, releaseEntries_buffer]
  rfl

theorem aborted_rest : { s.aborted c offset atSignal with
    entries := s.entries, requestQueue := s.requestQueue, engine := s.engine, buffers := s.buffers } =
      ((s.answered 18 .done).setChannel c
        { s.channels[c] with
          state := .faulted, faultCode := .aborted, faultOffset := offset, faultAtSignal := atSignal, live := 0 }).post
        (.channelFault c .aborted offset atSignal) := by
  unfold State.aborted State.releaseEntries
  rfl

variable {s} (h : ∀ i, EntryLaws s i)
include h

theorem aborted_requestQueue : (s.aborted c offset atSignal).requestQueue =
    s.requestQueue.filter (fun i => s.entries[i].owner != some c) := by
  rw [State.aborted, State.post_requestQueue, State.setChannel_requestQueue, releaseEntries_requestQueue]
  exact List.filter_congr fun i _ => abortRelease_beq_keep (h i)

theorem aborted_engine : (s.aborted c offset atSignal).engine =
    { s.engine with requester := s.engine.requester.filter fun j =>
        match j.owner with
        | .entry i => s.entries[i].owner != some c
        | _ => true } := by
  have hkept : Job.keptBy (abortRelease s c) = fun j =>
      match j.owner with
      | .entry i => s.entries[i].owner != some c
      | _ => true := by
    funext j
    unfold Job.keptBy
    split <;> simp only [*, abortRelease_beq_keep (h _)]
  rw [State.aborted, State.post_engine, State.setChannel_engine, releaseEntries_engine, hkept]
  rfl

end

/-- Settles O16: the release takes the channel's entries (`abortRelease_keep_iff`) and frees or releases each by its state,
and what it leaves of a buffer, a job and a queue place goes by the entry they belong to. -/
theorem chAbortReleasesEntries : Obligations.ChAbortReleasesEntries := by
  unfold Obligations.ChAbortReleasesEntries
  refine ⟨?_, fun _ => rfl⟩
  rintro s c r offset atSignal hr hc hs rfl hst
  obtain ⟨hactive, hoffset, hat⟩ := abort_reports hst
  have hlaws := hs.laws
  refine ⟨s.aborted c offset atSignal, ?exec, aborted_rest s c offset atSignal, aborted_requestQueue c _ _ hlaws,
    aborted_engine c _ _ hlaws, fun b hb => ?foreign,
    fun i => ⟨fun ho => ?kept, fun ho => ⟨fun hf => ?freed, fun hf => ?released⟩⟩⟩
  case exec =>
    rw [chAbort_taken hr hc hactive, hoffset, hat]
  case foreign =>
    rw [aborted_buffer, afterRelease_other hb]
  case kept =>
    have hkeep := (abortRelease_keep_iff (hlaws i)).mpr ho
    refine ⟨by rw [aborted_entry, hkeep]; rfl, fun b hb => ?_⟩
    rw [aborted_buffer, afterRelease_held hb, hkeep, if_neg nofun]
  case freed =>
    have hfree := abortRelease_free (hlaws i) ho hf
    refine ⟨by rw [aborted_entry, hfree]; rfl, fun b hb => ?_⟩
    rw [aborted_buffer, afterRelease_held hb, hfree, if_pos rfl]
  case released =>
    have hrel := abortRelease_releasing (hlaws i) ho hf
    refine ⟨by rw [aborted_entry, hrel]; rfl, fun b hb => ?_⟩
    rw [aborted_buffer, afterRelease_held hb, hrel, if_neg nofun]

end Sys2Proof.Machine
end

section
/-! A request sent to its end, a response timeout and a hold's end: the entry is sent again behind the others, fails at
its limit, or is freed under a halt (R105 to R107, R113 to R117). -/

namespace Sys2Proof.Machine

/-! ### The owner's halt (R116) -/

theorem ownerHalting_eq_true {s : State} {i : Fin 16} {c : Fin 8} (ho : s.entries[i].owner = some c)
    (h : s.channels[c].state = .halting) : ownerHalting s i = true := by
  unfold ownerHalting
  simp only [ho, h, BEq.rfl]

theorem ownerHalting_eq_false {s : State} {i : Fin 16}
    (h : ∀ c, s.entries[i].owner = some c → s.channels[c].state ≠ .halting) : ownerHalting s i = false := by
  unfold ownerHalting
  cases ho : s.entries[i].owner with
  | none => rfl
  | some c => exact beq_false_of_ne (h c ho)

/-! ### A request to be sent again (R106, R107, R115, R116) -/

section
variable {s : State} {i : Fin 16} {c : Fin 8}

/-- Below the retry limit the entry goes to the tail of the Request Queue (R102, R106, R107). -/
theorem retryEntry_again (hlt : s.entries[i].retry < s.loader.config.retryLimit)
    (h : ∀ c, s.entries[i].owner = some c → s.channels[c].state ≠ .halting) : s.retryEntry i =
      ({ s with requestQueue := s.requestQueue ++ [i] }).setEntry i
        { s.entries[i] with state := .queued, retry := s.entries[i].retry + 1, timer := .stopped } := by
  rw [State.retryEntry, if_pos hlt, ownerHalting_eq_false h, if_neg Bool.false_ne_true]
  rfl

/-- At the retry limit the entry fails with NO_ANSWER, the first failure of its owner's pass (R89, R115). -/
theorem retryEntry_limit (hlimit : s.entries[i].retry = s.loader.config.retryLimit) (ho : s.entries[i].owner = some c)
    (h : s.channels[c].state = .running ∨ s.channels[c].state = .finishing ∨ s.channels[c].state = .signalling) :
    s.retryEntry i = s.firstFailure i c .noAnswer := by
  rw [State.retryEntry, if_neg hlimit.not_lt, failEntry_first _ ho h]

/-- Under a halt the entry is freed, below the retry limit and at it (R90, R116). -/
theorem retryEntry_halting (ho : s.entries[i].owner = some c) (h : s.channels[c].state = .halting) :
    s.retryEntry i = s.settledInHalt i c := by
  rw [State.retryEntry, ownerHalting_eq_true ho h, if_pos rfl, dropEntry_halting ho h, failEntry_halting _ ho h, ite_self]

/-! ### The timers (R107, R114) -/

theorem responseTimerExpiry_sent {us : Nat} (hst : s.entries[i].state = .sent)
    (htimer : s.entries[i].timer = .responseDeadline us) : exec (.responseTimerExpiry i) s = .next (s.retryEntry i) := by
  show execResponseTimerExpiry i s = _
  simp only [execResponseTimerExpiry, hst, htimer]

theorem holdTimerExpiry_holding {us : Nat} (hst : s.entries[i].state = .holding)
    (htimer : s.entries[i].timer = .holdEnd us) :
    exec (.holdTimerExpiry i) s = .next (s.queueTail i s.entries[i]) := by
  show execHoldTimerExpiry i s = _
  simp only [execHoldTimerExpiry, hst, htimer]

end

/-- Settles O27: a response timeout is one more retry of its entry, and a hold's end queues it as it is. -/
theorem timerExpiriesRequeue : Obligations.TimerExpiriesRequeue := by
  unfold Obligations.TimerExpiriesRequeue
  refine fun s i us => ⟨fun hst htimer => ?response, fun hst htimer => ?hold⟩
  case response =>
    rw [responseTimerExpiry_sent hst htimer]
    refine ⟨fun hlt hrun => ?again, fun c hlimit ho hact => ?limit, fun c ho hhalt => ?halting⟩
    case again => rw [retryEntry_again hlt hrun]
    case limit => rw [retryEntry_limit hlimit ho hact]
    case halting => rw [retryEntry_halting ho hhalt]
  case hold => exact holdTimerExpiry_holding hst htimer

/-! ### The end of a request frame (R105, R106, R117, R139) -/

/-- The end of a request frame gives its entry the acceptance result (R137, R139). -/
theorem sentFrameEnd_request {s : State} {slot : LineCond} {h : Hand} {i : Fin 16} (hst : s.line.state = .sending)
    (hhand : s.line.hand = some h) (hown : h.owner = .request i) : exec (.sentFrameEnd slot) s = .next
      (State.entrySent
        (s.setLine { s.line with state := .idle, lastWinner := s.loader.number, clashes := 0, hand := none })
        i (slotTaken slot)) := by
  show execSentFrameEnd slot s = _
  simp only [execSentFrameEnd, hst, hhand, hown, State.giveResult]

section
variable {s : State} {i : Fin 16}

theorem entrySent_releasing (hst : s.entries[i].state = .releasing) (taken : Bool) :
    s.entrySent i taken = s.entryFreed i := if_pos hst

theorem entrySent_taken (hst : s.entries[i].state = .sending) : s.entrySent i true = s.setEntry i
    { s.entries[i] with state := .sent, timer := .responseDeadline (20 * s.loader.config.responseLimit) } := by
  rw [State.entrySent, if_neg (by rw [hst]; decide), if_pos rfl]

theorem entrySent_notTaken (hst : s.entries[i].state = .sending) : s.entrySent i false = s.retryEntry i := by
  rw [State.entrySent, if_neg (by rw [hst]; decide), if_neg Bool.false_ne_true]

end

/-- Settles O25: the line goes IDLE, and TAKEN starts the entry's deadline where NOT_TAKEN is one more retry of it. -/
theorem requestSendResult : Obligations.RequestSendResult := by
  unfold Obligations.RequestSendResult
  rintro s u slot h i e hst hhand hown rfl hu
  rw [sentFrameEnd_request hst hhand hown, ← hu]
  have hentries : u.entries = s.entries := by rw [hu]; rfl
  have hchannels : u.channels = s.channels := by rw [hu]; rfl
  have hqueue : u.requestQueue = s.requestQueue := by rw [hu]; rfl
  have hloader : u.loader = s.loader := by rw [hu]; rfl
  rw [← hentries, ← hchannels, ← hqueue, ← hloader]
  refine ⟨fun hslot hsending => ?taken, ?again, ?limit, ?halting, fun hrel => ?releasing⟩
  case taken =>
    have htaken : slotTaken slot = true := bne_iff_ne.mpr hslot
    rw [htaken, entrySent_taken hsending]
  case again =>
    rintro rfl hsending hlt hrun
    exact congrArg _ ((entrySent_notTaken hsending).trans (retryEntry_again hlt hrun))
  case limit =>
    rintro c rfl hsending hlimit ho hact
    exact congrArg _ ((entrySent_notTaken hsending).trans (retryEntry_limit hlimit ho hact))
  case halting =>
    rintro c rfl hsending ho hhalt
    exact congrArg _ ((entrySent_notTaken hsending).trans (retryEntry_halting ho hhalt))
  case releasing => rw [entrySent_releasing hrel]

end Sys2Proof.Machine
end

section
/-! Answers that match their entry: a DATA that lands, and each DONE outcome but OK (R109, R111, R113, R115, R116). -/

namespace Sys2Proof.Machine

/-! ### A matching answer (R109) -/

/-- The epoch, the state and the form make an answer match its entry (R109). -/
theorem answerMatches_true {s : State} {a : Answer} {i : Fin 16} (hi : tagEntry a.tag = i)
    (hepoch : s.entries[i].epoch = a.tag.epoch)
    (hst : s.entries[i].state = .sent ∨ s.entries[i].state = .queued ∨ s.entries[i].state = .holding)
    (hform : a.suits s.entries[i] = true) : answerMatches s a = true := by
  subst hi
  rw [answerMatches, Bool.and_eq_true, Bool.and_eq_true]
  exact ⟨⟨beq_iff_eq.mpr hepoch, (matchable_iff _).mpr (or_left_comm.mp hst)⟩, hform⟩

/-- A DATA suits a GET of its own length (R109). -/
theorem suits_data_get {tag : Tag} {pay : List Byte} {e : Entry} (hkind : e.kind = .get) (hlen : pay.length = e.length) :
    (Answer.data tag pay).suits e = true := by
  simp only [Answer.suits, hkind, hlen, BEq.rfl]

/-- A DONE that is not OK suits every kind (R109). -/
theorem suits_done_ne_ok {tag : Tag} {outcome : DoneOutcome} {e : Entry} (h : outcome ≠ .ok) :
    (Answer.done tag outcome).suits e = true := by
  unfold Answer.suits
  cases e.kind with
  | put => rfl
  | signal => rfl
  | get => exact bne_iff_ne.mpr h

theorem unqueue_get_self (s : State) (i : Fin 16) :
    (s.unqueue i).entries[i] = { s.entries[i] with timer := .stopped } := setEntry_get_self _ _ _

/-- What an entry off the Request Queue becomes does not depend on its stopped timer. -/
theorem unqueue_setEntry (s : State) (i : Fin 16) (e : Entry) :
    (s.unqueue i).setEntry i e = (unlisted s i).setEntry i e := by
  simp only [State.setEntry, State.unqueue, unlisted, Vector.set_set]

/-! ### DATA (R111) -/

/-- Entry `i` off the Request Queue and LANDING, its payload in buffer `b` (R109, R111). -/
def State.landed (s : State) (i : Fin 16) (b : Fin 24) (pay : List Byte) : State :=
  ((unlisted s i).setBuffer b { s.buffers[b] with data := putBytes s.buffers[b].data 0 pay }).setEntry i
    { s.entries[i] with state := .landing, timer := .stopped }

/-- A DATA that matches a GET with buffer `b` lands there, and then the landing write is queued (R111). -/
theorem unqueue_landData {s : State} {i : Fin 16} {b : Fin 24} (hb : s.entries[i].buffer = some b) (pay : List Byte) :
    (s.unqueue i).landData i pay = (s.landed i b pay).queueRequester
      ⟨.write, .requester, s.entries[i].localAddress, s.entries[i].length, some b, .entry i, .listed, 0, none, false⟩ := by
  rw [State.landData, unqueue_get_self, landingJob, hb]
  exact congrArg (fun t : State => (t.setBuffer b _).queueRequester _) (unqueue_setEntry s i _)

/-- A landing changes the entry, the Request Queue and the buffers alone (R111). -/
theorem landed_rest (s : State) (i : Fin 16) (b : Fin 24) (pay : List Byte) : { s.landed i b pay with
    entries := s.entries, requestQueue := s.requestQueue, buffers := s.buffers } = s := by
  unfold State.landed unlisted
  rfl

theorem landed_buffer (s : State) (i : Fin 16) (b : Fin 24) (pay : List Byte) :
    (s.landed i b pay).buffers[b] = { s.buffers[b] with data := putBytes s.buffers[b].data 0 pay } :=
  setBuffer_get_self _ _ _

theorem landed_buffer_other (s : State) (i : Fin 16) (b d : Fin 24) (pay : List Byte) (h : d ≠ b) :
    (s.landed i b pay).buffers[d] = s.buffers[d] :=
  setBuffer_get_other _ _ _ _ h.symm

/-- A payload that fits, placed from the first byte on, is what the buffer begins with (R111). -/
theorem putBytes_take {data : Vector Byte 64} {pay : List Byte} (h : pay.length ≤ 64) :
    (putBytes data 0 pay).toList.take pay.length = pay := by
  rw [putBytes_toList pay data 0 (by omega), List.take_zero, List.nil_append, List.take_left]

/-- Queueing a requester job changes the engine alone, by the rule of its list (R151, R152). -/
theorem queueRequester_setEngine (s : State) (j : Job) :
    ∃ e, s.queueRequester j = s.setEngine e ∧ RequesterQueued s (s.setEngine e) j := by
  obtain ⟨e, he⟩ := queueRequester_eq s j
  exact ⟨e, he, he ▸ queueRequester_queued s j⟩

/-- A DATA that a sender can send has 1 to 64 bytes, as many as its length says (R122, R193). -/
theorem data_sendable {f : Frame} {dest : Station} {tag : Tag} {len : BitVec 7} {pay : List Byte}
    (hbody : f.body = .data dest tag len pay) (h : f.sendable = true) :
    1 ≤ len.toNat ∧ len.toNat ≤ 64 ∧ pay.length = len.toNat := by
  rw [Frame.sendable, hbody, Bool.and_eq_true] at h
  have hpay : (lengthInRange len && pay.length == len.toNat) = true := h.2
  rw [Bool.and_eq_true, lengthInRange_iff, beq_iff_eq] at hpay
  exact and_assoc.mp hpay

/-- Settles O38: the DATA matches its GET, and its payload lands. -/
theorem dataLands : Obligations.DataLands := by
  unfold Obligations.DataLands
  rintro s conds f tag len pay i b e hrec hbody hsend rfl hi hepoch hst hkind hlen hb
  obtain ⟨hlow, hhigh, hpay⟩ := data_sendable hbody hsend
  have hreq : frameRequest f = none := by
    unfold frameRequest
    rw [hbody]
  have hmatch : answerMatches s (.data tag pay) = true :=
    answerMatches_true (tagEntry_eq hi) hepoch hst (suits_data_get hkind (hpay.trans hlen.symm))
  have htake : s.takeAnswer (.data tag pay) = (s.unqueue i).landData i pay := by
    rw [State.takeAnswer, if_pos hmatch, tagEntry_eq hi]
  rw [frameCrcReceived_answer hrec (by rw [hbody]; rfl) hreq (frameAnswer_data hbody hlow hhigh hpay), htake,
    unqueue_landData hb]
  obtain ⟨engine, hengine, hqueued⟩ := queueRequester_setEngine (s.landed i b pay)
    ⟨.write, .requester, s.entries[i].localAddress, s.entries[i].length, some b, .entry i, .listed, 0, none, false⟩
  rw [hengine]
  refine ⟨_, rfl, ?rest, rfl, rfl, rfl, ?owner, ?payload, fun d hd => ?others, hqueued⟩
  case rest => exact congrArg (fun u : State => { u with engine := s.engine, line := s.line }) (landed_rest s i b pay)
  case owner => exact (congrArg Buffer.owner (landed_buffer s i b pay)).trans rfl
  case payload =>
    rw [← hpay]
    exact (congrArg (fun x : Buffer => x.data.toList.take pay.length) (landed_buffer s i b pay)).trans
      (putBytes_take (hpay ▸ hhigh))
  case others => exact landed_buffer_other s i b d pay hd

/-! ### DONE with another outcome than OK (R113, R115) -/

section
variable {s : State} {i : Fin 16} {c : Fin 8}

/-- Below the hold limit the entry is held for one hold interval (R113). -/
theorem holdEntry_again (hlt : s.entries[i].hold < s.loader.config.holdLimit)
    (h : ∀ c, s.entries[i].owner = some c → s.channels[c].state ≠ .halting) : s.holdEntry i = s.setEntry i
      { s.entries[i] with
        state := .holding, hold := s.entries[i].hold + 1, retry := 0
        timer := .holdEnd (10 * s.loader.config.holdInterval) } := by
  rw [State.holdEntry, if_pos hlt, ownerHalting_eq_false h, if_neg Bool.false_ne_true]

/-- Under a halt the entry is freed, below the hold limit and at it (R90, R116). -/
theorem holdEntry_halting (ho : s.entries[i].owner = some c) (h : s.channels[c].state = .halting) :
    s.holdEntry i = s.settledInHalt i c := by
  rw [State.holdEntry, ownerHalting_eq_true ho h, if_pos rfl, dropEntry_halting ho h, failEntry_halting _ ho h, ite_self]

/-- Under a halt every outcome but OK frees the entry (R90, R116). -/
theorem settleDone_halting {outcome : DoneOutcome} (hne : outcome ≠ .ok) (ho : s.entries[i].owner = some c)
    (h : s.channels[c].state = .halting) : s.settleDone i outcome = s.settledInHalt i c := by
  cases outcome with
  | ok => exact absurd rfl hne
  | absent => exact failEntry_halting _ ho h
  | denied => exact failEntry_halting _ ho h
  | range => exact failEntry_halting _ ho h
  | fault => exact failEntry_halting _ ho h
  | parked => exact holdEntry_halting ho h
  | full => exact holdEntry_halting ho h

/-- The outcomes that hold the entry (R113). -/
theorem ofCode_hold {o : BitVec 3} (h : o = 4 ∨ o = 5) : ∃ outcome, DoneOutcome.ofCode o = some outcome ∧
    outcome ≠ .ok ∧ ∀ s i, State.settleDone s i outcome = s.holdEntry i := by
  rcases h with rfl | rfl
  · exact ⟨.parked, rfl, by decide, fun _ _ => rfl⟩
  · exact ⟨.full, rfl, by decide, fun _ _ => rfl⟩

/-- The outcomes that fail the entry, with the code that its owner is told (R88, R113, R115). -/
theorem ofCode_failure {o : BitVec 3} {code : FaultCode}
    (h : (o = 4 ∨ o = 5) ∧ s.entries[i].hold = s.loader.config.holdLimit ∧ code = .heldTooLong ∨
      o = 1 ∧ code = .absent ∨ o = 2 ∧ code = .denied ∨ o = 3 ∧ code = .range ∨ o = 6 ∧ code = .remoteFault) :
    ∃ outcome, DoneOutcome.ofCode o = some outcome ∧ outcome ≠ .ok ∧ s.settleDone i outcome = s.failEntry i code := by
  rcases h with ⟨ho, hlimit, rfl⟩ | ⟨rfl, rfl⟩ | ⟨rfl, rfl⟩ | ⟨rfl, rfl⟩ | ⟨rfl, rfl⟩
  case inl =>
    obtain ⟨outcome, hcode, hne, hsettle⟩ := ofCode_hold ho
    exact ⟨outcome, hcode, hne, (hsettle s i).trans (by rw [State.holdEntry, if_neg hlimit.not_lt])⟩
  · exact ⟨.absent, rfl, by decide, rfl⟩
  · exact ⟨.denied, rfl, by decide, rfl⟩
  · exact ⟨.range, rfl, by decide, rfl⟩
  · exact ⟨.fault, rfl, by decide, rfl⟩

end

/-- A DONE of the entry's epoch with another outcome than OK settles an entry of any kind (R109, R124). -/
theorem frameCrcReceived_done {s : State} {conds : List LineCond} {f : Frame} {tag : Tag} {o : BitVec 3} {i : Fin 16}
    {outcome : DoneOutcome} (hrec : Receives s conds f) (hbody : f.body = .done s.loader.number tag o)
    (hi : i.val = tag.entry.toNat) (hepoch : s.entries[i].epoch = tag.epoch)
    (hst : s.entries[i].state = .sent ∨ s.entries[i].state = .queued ∨ s.entries[i].state = .holding)
    (hcode : DoneOutcome.ofCode o = some outcome) (hne : outcome ≠ .ok) : exec (.frameCrcReceived conds) s = .next
      (((s.unqueue i).settleDone i outcome).setLine { s.line with rx := .good f.claim.sender true }) := by
  have hans : frameAnswer f = some (.done tag outcome) := by
    rw [frameAnswer_done hbody, hcode]
    rfl
  have hreq : frameRequest f = none := by
    unfold frameRequest
    rw [hbody]
  have hmatch : answerMatches s (.done tag outcome) = true :=
    answerMatches_true (tagEntry_eq hi) hepoch hst (suits_done_ne_ok hne)
  rw [frameCrcReceived_answer hrec (by rw [hbody]; rfl) hreq hans, State.takeAnswer, if_pos hmatch, tagEntry_eq hi]

/-- Settles O39: the outcome holds the entry or fails it, and under a halt every one of them frees it. -/
theorem holdOutcomeHolds : Obligations.HoldOutcomeHolds := by
  unfold Obligations.HoldOutcomeHolds
  rintro s u conds f tag o i e hrec hbody rfl hi hepoch hst rfl
  have hexec {outcome : DoneOutcome} := frameCrcReceived_done (outcome := outcome) hrec hbody hi hepoch hst
  have howner : (s.unqueue i).entries[i].owner = s.entries[i].owner := by rw [unqueue_get_self]
  refine ⟨fun hhold hlt hrun => ?held, fun c code ho hact hfail => ?failed, fun c ho hhalt hok hnone => ?halting⟩
  case held =>
    obtain ⟨outcome, hcode, hne, hsettle⟩ := ofCode_hold hhold
    rw [hexec hcode hne, hsettle, holdEntry_again (by rw [unqueue_get_self]; exact hlt) (by rw [howner]; exact hrun),
      unqueue_get_self, unqueue_setEntry]
    rfl
  case failed =>
    obtain ⟨outcome, hcode, hne, hsettle⟩ := ofCode_failure (s := s.unqueue i) (i := i) (by rw [unqueue_get_self]; exact hfail)
    rw [hexec hcode hne, hsettle, failEntry_first code (howner.trans ho) hact, unqueue_firstFailure]
    exact congrArg _ (setLine_firstFailure (unlisted s i) { s.line with rx := .good f.claim.sender true } i c code rfl
      rfl).symm
  case halting =>
    obtain ⟨outcome, hcode, hzero⟩ := ofCode_of_ne hnone
    rw [hexec hcode fun h => hok (hzero.mp h), settleDone_halting (fun h => hok (hzero.mp h)) (howner.trans ho) hhalt,
      unqueue_settledInHalt, ← setLine_settledInHalt]
    rfl

end Sys2Proof.Machine
end

section
/-! The end of an entry's staging read or landing write, by its last cycle or by a fault: the entry's part by its state,
and then the engine let go (R101, R112, R115 to R117, R157). -/

namespace Sys2Proof.Machine

/-! ### The entry's part (R101, R112, R115 to R117) -/

section
variable {s : State} {i : Fin 16} {c : Fin 8}

theorem entryJobEnd_releasing (hst : s.entries[i].state = .releasing) (faulted : Bool) :
    s.entryJobEnd i faulted = s.entryFreed i := by
  simp only [State.entryJobEnd, hst, entryFreed_eq]

theorem entryJobEnd_faulted (hst : s.entries[i].state = .staging ∨ s.entries[i].state = .landing) :
    s.entryJobEnd i true = s.failEntry i .localFault := by
  rcases hst with hst | hst <;> simp only [State.entryJobEnd, hst, if_true]

theorem entryJobEnd_landed (hst : s.entries[i].state = .landing) : s.entryJobEnd i false = s.completeEntry i := by
  simp only [State.entryJobEnd, hst, Bool.false_eq_true, if_false]

theorem entryJobEnd_staged (hst : s.entries[i].state = .staging)
    (h : ∀ c, s.entries[i].owner = some c → s.channels[c].state ≠ .halting) :
    s.entryJobEnd i false = s.queueTail i s.entries[i] := by
  simp only [State.entryJobEnd, hst, ownerHalting_eq_false h, Bool.false_eq_true, if_false]

theorem entryJobEnd_staged_halting (hst : s.entries[i].state = .staging) (ho : s.entries[i].owner = some c)
    (h : s.channels[c].state = .halting) : s.entryJobEnd i false = s.settledInHalt i c := by
  simp only [State.entryJobEnd, hst, ownerHalting_eq_true ho h, Bool.false_eq_true, if_false, if_true,
    dropEntry_halting ho h]

/-! ### The engine let go after it (R157) -/

/-- A RELEASING entry is freed at its job's end, faulted or not (R117). -/
theorem endJob_releasing (hst : s.entries[i].state = .releasing) (faulted : Bool) :
    s.endJob (.entry i) faulted = (s.entryFreed i).jobLetGo :=
  endJob_entry ((entryJobEnd_releasing (s := s.releaseEngine) hst faulted).trans (releaseEngine_entryFreed s i))

/-- A staged entry is queued (R101, R102). -/
theorem endJob_staged (hst : s.entries[i].state = .staging)
    (h : ∀ c, s.entries[i].owner = some c → s.channels[c].state ≠ .halting) : s.endJob (.entry i) false =
      (({ s with requestQueue := s.requestQueue ++ [i] }).setEntry i
        { s.entries[i] with state := .queued, timer := .stopped }).jobLetGo :=
  endJob_entry (entryJobEnd_staged (s := s.releaseEngine) hst h)

/-- A staged entry of a HALTING owner is freed (R116). -/
theorem endJob_staged_halting (hst : s.entries[i].state = .staging) (ho : s.entries[i].owner = some c)
    (h : s.channels[c].state = .halting) : s.endJob (.entry i) false = (s.settledInHalt i c).jobLetGo :=
  endJob_entry ((entryJobEnd_staged_halting (s := s.releaseEngine) hst ho h).trans (releaseEngine_settledInHalt s i c))

/-- A landed entry completes at its owner (R112). -/
theorem endJob_landed (hst : s.entries[i].state = .landing) (ho : s.entries[i].owner = some c) :
    s.endJob (.entry i) false = (s.entryCompleted i c).jobLetGo :=
  endJob_entry ((entryJobEnd_landed (s := s.releaseEngine) hst).trans
    ((completeEntry_eq (s := s.releaseEngine) ho).trans (releaseEngine_entryCompleted s i c)))

/-- A fault is the first final failure of a running pass (R89, R115). -/
theorem endJob_fault (hst : s.entries[i].state = .staging ∨ s.entries[i].state = .landing)
    (ho : s.entries[i].owner = some c)
    (h : s.channels[c].state = .running ∨ s.channels[c].state = .finishing ∨ s.channels[c].state = .signalling) :
    s.endJob (.entry i) true = (s.firstFailure i c .localFault).jobLetGo :=
  endJob_entry ((entryJobEnd_faulted (s := s.releaseEngine) hst).trans
    ((failEntry_first (s := s.releaseEngine) _ ho h).trans (releaseEngine_firstFailure s i c _)))

/-- A fault under a halt only settles the entry (R90). -/
theorem endJob_fault_halting (hst : s.entries[i].state = .staging ∨ s.entries[i].state = .landing)
    (ho : s.entries[i].owner = some c) (h : s.channels[c].state = .halting) :
    s.endJob (.entry i) true = (s.settledInHalt i c).jobLetGo :=
  endJob_entry ((entryJobEnd_faulted (s := s.releaseEngine) hst).trans
    ((failEntry_halting (s := s.releaseEngine) _ ho h).trans (releaseEngine_settledInHalt s i c)))

end

/-- Settles O45: the last cycle moves its bytes and a fault moves none, and then the entry's part comes before the
engine goes on. -/
theorem stagingAndLandingEnd : Obligations.StagingAndLandingEnd := by
  unfold Obligations.StagingAndLandingEnd
  rintro s j i e hj hown rfl
  refine ⟨?lastCycle, fun command hcommand => ?fault⟩
  case lastCycle =>
    rintro stores m u hphase hstores hcycle hlast rfl hmoved
    have hu : State.moveCycle { s with mem := Memory.writeCells s.mem stores } j = u := by
      rcases hmoved with ⟨b, hkind, hb, rfl⟩ | ⟨hkind, rfl⟩
      · exact moveCycle_read hkind hb
      · exact moveCycle_write hkind
    have hentries : u.entries = s.entries := by rcases hmoved with ⟨b, -, -, rfl⟩ | ⟨-, rfl⟩ <;> rfl
    have hchannels : u.channels = s.channels := by rcases hmoved with ⟨b, -, -, rfl⟩ | ⟨-, rfl⟩ <;> rfl
    have hqueue : u.requestQueue = s.requestQueue := by rcases hmoved with ⟨b, -, -, rfl⟩ | ⟨-, rfl⟩ <;> rfl
    rw [busCycleComplete_last hj hphase hstores hcycle hlast, hown, hu, ← hentries, ← hchannels, ← hqueue]
    refine ⟨fun hst hrun => ?staged, fun c hst ho hhalt => ?halting, fun c hst ho => ?landed, fun hst => ?releasing⟩
    case staged => rw [endJob_staged hst hrun]
    case halting => rw [endJob_staged_halting hst ho hhalt]
    case landed => rw [endJob_landed hst ho]
    case releasing => rw [endJob_releasing hst]
  case fault =>
    rw [jobFault_endJob hj hcommand, hown]
    refine ⟨fun c hst ho hact => ?first, fun c hst ho hhalt => ?halting, fun hst => ?releasing⟩
    case first => rw [endJob_fault hst ho hact]
    case halting => rw [endJob_fault_halting hst ho hhalt]
    case releasing => rw [endJob_releasing hst]

end Sys2Proof.Machine
end

section
/-! The predicates at reset, the line's predicate over every step, and LINE_RESTART. -/

namespace Sys2Proof.Machine

/-! ### Every step (R119, R128, R140, R141, R184) -/

/-- Settles O54: each event of the line keeps the line's laws (`LineOk`), every other event is quiet towards it, and the
loader's decision and the resets move the line and the station together. -/
theorem lineStaysInStep : Obligations.LineStaysInStep := by
  unfold Obligations.LineStaysInStep
  intro s t hs h
  obtain ⟨hheld, hline⟩ := (lineInv_iff s).mp hs
  obtain ⟨hheld', hline', -⟩ := step_invariants hheld h
  exact (lineInv_iff t).mpr ⟨hheld', hline' hline⟩

/-! ### Reset -/

/-- A full reset finds nothing to clear at reset. -/
theorem reset_fullReset : State.reset.fullReset = State.reset := by
  have hbuffers : State.reset.buffers.map (fun b => { b with owner := none }) = State.reset.buffers :=
    Vector.map_replicate
  unfold State.fullReset
  rw [hbuffers]
  rfl

theorem reset_atFullReset : AtFullReset State.reset := reset_fullReset ▸ fullReset_atFullReset State.reset

/-- With no buffer, no entry and no slot in use the Pool's predicate holds (R146). -/
theorem poolInv_of_reset {s : State} (h : AtFullReset s) : PoolInv s := by
  obtain ⟨-, hslots, -, -, -, -, hentries, -, -, hbuffers, -⟩ := h
  refine ⟨fun b i => ?_, fun b k => ?_, fun i _ => ?_⟩
  · rw [hbuffers, hentries]; exact iff_of_false nofun nofun
  · rw [hbuffers, hslots]; exact iff_of_false nofun nofun
  · rw [hentries]

/-- Settles O50: reset stands at every block's full-reset value, from which each predicate follows on its own. -/
theorem predicatesHoldAtReset : Obligations.PredicatesHoldAtReset := by
  unfold Obligations.PredicatesHoldAtReset
  have hreset := reset_atFullReset
  have hheld : HeldInv State.reset := fun _ => hreset
  have hline : LineInv State.reset := ⟨hheld, lineCore_of_reset hreset⟩
  have hserve : ServeInv State.reset :=
    (serveInv_iff _).mpr ⟨hheld, hline.2, serveOk_of_reset hreset rfl rfl rfl rfl fun _ => rfl⟩
  have hnotices : NoticesOk State.reset.notices := ⟨Nat.zero_le _, List.not_mem_nil, nofun, rfl⟩
  have hengine : EngineOk State.reset :=
    ⟨rfl, iff_of_false nofun (by rintro ⟨_, ⟨⟩, _⟩), nofun, fun _ hj => absurd hj List.not_mem_nil, fun _ => ⟨rfl, rfl⟩⟩
  exact ⟨hheld, hnotices, Memory.reset_wf, hline, ⟨hheld, hengine⟩, channelInv_of_reset hreset rfl,
    ⟨hline, requestsOk_of_reset hreset rfl rfl rfl rfl (fun _ => rfl) fun _ => rfl⟩, poolInv_of_reset hreset, hserve,
    ⟨hserve, replayOk_of_reset hreset⟩⟩

/-! ### LINE_RESTART (R143) -/

/-- Settles O28: the port hands the command to the line unit, whose answer goes by the line state. -/
theorem lineRestartRejoins : Obligations.LineRestartRejoins := by
  unfold Obligations.LineRestartRejoins
  refine fun s hr => ⟨fun hst => ?silent, fun hst => ?other⟩ <;>
    refine congrArg Host.Outcome.next ((takeCommand_ready hr 32 lineRestart).trans ?_)
  case silent =>
    rw [lineRestart, if_pos hst]
    rfl
  case other =>
    rw [lineRestart, if_neg hst]
    rfl

end Sys2Proof.Machine
end

section
/-! A start opportunity: the claim word of the station's rank, and the frame of the response or the entry that is first
in turn (R45, R103, R133, R136). -/

namespace Sys2Proof.Machine

/-! ### The claim word (R133, R136) -/

/-- ROTATING ranks the station by how far it comes after the last winner, FIXED by its number. -/
theorem rank_eq {policy : Policy} {own lastWinner : Station} {rk : BitVec 5}
    (h : rk.toNat = (match policy with
      | .rotating => (own.toNat + 63 - lastWinner.toNat) % 32
      | .fixed => own.toNat)) : rank policy own lastWinner = rk := by
  apply BitVec.eq_of_toNat_eq
  rw [h]
  cases policy with
  | rotating =>
    have hone : (1 : BitVec 5).toNat = 1 := rfl
    simp only [rank, BitVec.toNat_sub, hone]
    omega
  | fixed => rfl

theorem ownClaim_eq {s : State} {rk : BitVec 5}
    (h : rank s.loader.config.policy s.loader.number s.line.lastWinner = rk) (request : Bool) :
    ownClaim s request = ⟨request, rk, s.loader.number⟩ := by
  rw [ownClaim, h]

/-! ### The frame of a response and of a request (R45, R103) -/

theorem doneOutcome_code (o : DoneOutcome) : o.code =
    BitVec.ofNat 3 ([DoneOutcome.ok, .absent, .denied, .range, .parked, .full, .fault].idxOf o) := by
  cases o <;> rfl

section
variable {s : State} {op : Operation} {i : Fin 16}

theorem responseBody_done {o : DoneOutcome} (h : op.response = some (.done o)) :
    responseBody s op = some (.done op.requester op.tag (BitVec.ofNat 3
      ([DoneOutcome.ok, .absent, .denied, .range, .parked, .full, .fault].idxOf o))) := by
  rw [← doneOutcome_code]
  simp only [responseBody, h]

theorem responseBody_data {b : Fin 24} {n : Nat} (h : op.response = some .data) (hb : op.buffer = some b)
    (hn : op.length = some n) :
    responseBody s op = some (.data op.requester op.tag (BitVec.ofNat 7 n) (s.buffers[b].data.toList.take n)) := by
  simp only [responseBody, h, hn, hb, Option.getD_some, bufferBytes]

theorem requestBody_put {b : Fin 24} (h : s.entries[i].kind = .put) (hb : s.entries[i].buffer = some b) :
    requestBody s i = .put s.entries[i].target s.loader.config.incarnation ⟨BitVec.ofFin i, s.entries[i].epoch⟩
      s.entries[i].window (if s.entries[i].mailbox then 0 else BitVec.ofNat 24 s.entries[i].remoteOffset)
      (BitVec.ofNat 7 s.entries[i].length) (s.buffers[b].data.toList.take s.entries[i].length) := by
  simp only [requestBody, h, hb, bufferBytes, entryTag, Entry.frameOffset]

theorem requestBody_get (h : s.entries[i].kind = .get) :
    requestBody s i = .get s.entries[i].target s.loader.config.incarnation ⟨BitVec.ofFin i, s.entries[i].epoch⟩
      s.entries[i].window (if s.entries[i].mailbox then 0 else BitVec.ofNat 24 s.entries[i].remoteOffset)
      (BitVec.ofNat 7 s.entries[i].length) := by
  simp only [requestBody, h, entryTag, Entry.frameOffset]

theorem requestBody_signal (h : s.entries[i].kind = .signal) :
    requestBody s i = .signal s.entries[i].target s.loader.config.incarnation ⟨BitVec.ofFin i, s.entries[i].epoch⟩
      s.entries[i].signalValue := by
  simp only [requestBody, h, entryTag]

end

/-! ### The frame offered (R133) -/

section
variable {s : State}

/-- The response at the head of the send order goes first. -/
theorem offer_response {k : Fin 8} {rest : List (Fin 8)} {op : Operation} {body : FrameBody}
    (horder : s.sendOrder = k :: rest) (hop : s.slots[k] = some op) (hbody : responseBody s op = some body) :
    offer s = some ⟨⟨ownClaim s false, body⟩, .response k⟩ := by
  simp only [offer, horder, hop, hbody]

/-- With no response waiting it is the entry at the head of the Request Queue. -/
theorem offer_request {i : Fin 16} {rest : List (Fin 16)} (horder : s.sendOrder = [])
    (hqueue : s.requestQueue = i :: rest) : offer s = some ⟨⟨ownClaim s true, requestBody s i⟩, .request i⟩ := by
  simp only [offer, horder, hqueue]

theorem offer_none (horder : s.sendOrder = []) (hqueue : s.requestQueue = []) : offer s = none := by
  simp only [offer, horder, hqueue]

theorem startOpportunity_some {h : Hand} (hst : s.line.state = .idle) (hoffer : offer s = some h) :
    exec .startOpportunity s = .next (s.contending h) := by
  show execStartOpportunity s = _
  rw [execStartOpportunity, if_pos hst, hoffer]
  rfl

theorem startOpportunity_none (hst : s.line.state = .idle) (hoffer : offer s = none) :
    exec .startOpportunity s = .next (s.setLine { s.line with aborting := false }) := by
  show execStartOpportunity s = _
  rw [execStartOpportunity, if_pos hst, hoffer]

theorem startOpportunity_other (hst : s.line.state ≠ .idle) : exec .startOpportunity s = .next s := if_neg hst

end

/-- Settles O21: in IDLE what is offered decides, and the frame offered is read off its operation or its entry. -/
theorem startOpportunityOffers : Obligations.StartOpportunityOffers := by
  unfold Obligations.StartOpportunityOffers
  intro s rk hrk
  have hclaim := ownClaim_eq (rank_eq hrk)
  refine ⟨startOpportunity_other, fun hst horder hqueue => startOpportunity_none hst (offer_none horder hqueue),
    fun hst k rest op horder hop => ?response, ?request⟩
  case response =>
    have hround : ∀ body, responseBody s op = some body → exec .startOpportunity s =
        .next (s.contending ⟨⟨⟨false, rk, s.loader.number⟩, body⟩, .response k⟩) := fun body hbody =>
      hclaim false ▸ startOpportunity_some hst (offer_response horder hop hbody)
    exact ⟨fun o ho => hround _ (responseBody_done ho), fun b n ho hb hn => hround _ (responseBody_data ho hb hn)⟩
  case request =>
    rintro hst horder i rest hqueue e rfl
    have hround : exec .startOpportunity s =
        .next (s.contending ⟨⟨⟨true, rk, s.loader.number⟩, requestBody s i⟩, .request i⟩) :=
      hclaim true ▸ startOpportunity_some hst (offer_request horder hqueue)
    exact ⟨fun b hk hb => requestBody_put hk hb ▸ hround, fun hk => requestBody_get hk ▸ hround,
      fun hk => requestBody_signal hk ▸ hround⟩

end Sys2Proof.Machine
end

section
/-! Frames on the line: the bits and their number, the readers of the receiver as the encoder's inverses, and where the
extent of a frame is read from (R122 to R124, R193, R194). -/

namespace Sys2Proof

/-! ### The bits of a frame (R122, R193, R194) -/

theorem LineCond.ofBit_eq : LineCond.ofBit = fun bit => if bit then LineCond.bit1 else .bit0 := by
  funext bit
  cases bit <;> rfl

/-- A claim word goes class, rank, sender (R122, R193). -/
theorem Claim.bits_eq (c : Claim) :
    c.bits = [c.request] ++ Machine.msbFirst c.rank ++ Machine.msbFirst c.sender := by
  rw [Claim.bits, sendBits_eq, sendBits_eq]
  rfl

theorem crcStep_eq (reg : BitVec 16) (bit : Bool) :
    crcStep reg bit = if (bit ^^ reg.getLsbD 15) = true then (reg <<< 1) ^^^ 4129#16 else reg <<< 1 := rfl

@[simp] theorem Claim.bits_length (c : Claim) : c.bits.length = 11 := by simp [Claim.bits]

@[simp] theorem Tag.bits_length (t : Tag) : t.bits.length = 16 := by simp [Tag.bits]

@[simp] theorem sendBytes_length (pay : List Byte) : (sendBytes pay).length = 8 * pay.length := by
  induction pay with
  | nil => rfl
  | cons b rest ih =>
    simp only [sendBytes, List.length_append, sendBits_length, ih, List.length_cons]
    omega

/-- The claim word and the kind take 14 bits. -/
theorem Frame.bits_length (f : Frame) : f.bits.length = 14 + f.body.fieldBits.length := by
  rw [Frame.bits, List.length_append, List.length_append, Claim.bits_length, sendBits_length, ← Nat.add_assoc]

@[simp] theorem Frame.wire_length (f : Frame) : f.wire.length = f.bits.length + 16 := by simp [Frame.wire]

/-! ### A good frame (R124) -/

/-- The payload is that of a length field of 1 to 64, where the kind has one. -/
def FrameBody.PayloadFits : FrameBody → Prop
  | .put _ _ _ _ _ len pay => lengthInRange len = true ∧ pay.length = len.toNat
  | .get .. => True
  | .signal .. => True
  | .data _ _ len pay => lengthInRange len = true ∧ pay.length = len.toNat
  | .done .. => True

/-- A frame whose extent a receiver knows: its kind agrees with its class and its payload with its length. -/
structure Frame.ExtentKnown (f : Frame) : Prop where
  kind : f.claim.request = f.body.isRequest
  payload : f.body.PayloadFits

theorem lengthInRange_iff (len : BitVec 7) : lengthInRange len = true ↔ 1 ≤ len.toNat ∧ len.toNat ≤ 64 := by
  rw [lengthInRange, Bool.and_eq_true, decide_eq_true_eq, decide_eq_true_eq]

/-! ### The readers (R124, R193) -/

section
variable {bs rest : List Bool} {body : FrameBody}

theorem takePut_eq_some : takePut bs = some (body, rest) ↔ ∃ d inc t w off len pay,
    body = .put d inc t w off len pay ∧ body.PayloadFits ∧ bs = body.fieldBits ++ rest := by
  simp only [takePut, Option.bind_eq_bind, Option.bind_eq_some_iff, Prod.exists, takeField_eq_some, takeTag_eq_some,
    takeBytes_eq_some, Option.pure_def, Option.ite_none_right_eq_some, Option.some.injEq, Prod.mk.injEq]
  constructor
  · rintro ⟨d, _, rfl, inc, _, rfl, t, _, rfl, w, _, rfl, off, _, rfl, len, _, rfl, hlen, pay, _, ⟨hpay, rfl⟩, rfl, rfl⟩
    exact ⟨d, inc, t, w, off, len, pay, rfl, ⟨hlen, hpay⟩, by simp [FrameBody.fieldBits]⟩
  · rintro ⟨d, inc, t, w, off, len, pay, rfl, ⟨hlen, hpay⟩, rfl⟩
    simp [FrameBody.fieldBits, hlen, hpay]

theorem takeGet_eq_some : takeGet bs = some (body, rest) ↔ ∃ d inc t w off len,
    body = .get d inc t w off len ∧ bs = body.fieldBits ++ rest := by
  simp only [takeGet, Option.bind_eq_bind, Option.bind_eq_some_iff, Prod.exists, takeField_eq_some, takeTag_eq_some,
    Option.pure_def, Option.some.injEq, Prod.mk.injEq]
  constructor
  · rintro ⟨d, _, rfl, inc, _, rfl, t, _, rfl, w, _, rfl, off, _, rfl, len, _, rfl, rfl, rfl⟩
    exact ⟨d, inc, t, w, off, len, rfl, by simp [FrameBody.fieldBits]⟩
  · rintro ⟨d, inc, t, w, off, len, rfl, rfl⟩
    simp [FrameBody.fieldBits]

theorem takeSignal_eq_some : takeSignal bs = some (body, rest) ↔ ∃ d inc t v,
    body = .signal d inc t v ∧ bs = body.fieldBits ++ rest := by
  simp only [takeSignal, Option.bind_eq_bind, Option.bind_eq_some_iff, Prod.exists, takeField_eq_some, takeTag_eq_some,
    Option.pure_def, Option.some.injEq, Prod.mk.injEq]
  constructor
  · rintro ⟨d, _, rfl, inc, _, rfl, t, _, rfl, v, _, rfl, rfl, rfl⟩
    exact ⟨d, inc, t, v, rfl, by simp [FrameBody.fieldBits]⟩
  · rintro ⟨d, inc, t, v, rfl, rfl⟩
    simp [FrameBody.fieldBits]

theorem takeData_eq_some : takeData bs = some (body, rest) ↔ ∃ d t len pay,
    body = .data d t len pay ∧ body.PayloadFits ∧ bs = body.fieldBits ++ rest := by
  simp only [takeData, Option.bind_eq_bind, Option.bind_eq_some_iff, Prod.exists, takeField_eq_some, takeTag_eq_some,
    takeBytes_eq_some, Option.pure_def, Option.ite_none_right_eq_some, Option.some.injEq, Prod.mk.injEq]
  constructor
  · rintro ⟨d, _, rfl, t, _, rfl, len, _, rfl, hlen, pay, _, ⟨hpay, rfl⟩, rfl, rfl⟩
    exact ⟨d, t, len, pay, rfl, ⟨hlen, hpay⟩, by simp [FrameBody.fieldBits]⟩
  · rintro ⟨d, t, len, pay, rfl, ⟨hlen, hpay⟩, rfl⟩
    simp [FrameBody.fieldBits, hlen, hpay]

theorem takeDone_eq_some : takeDone bs = some (body, rest) ↔ ∃ d t o,
    body = .done d t o ∧ bs = body.fieldBits ++ rest := by
  simp only [takeDone, Option.bind_eq_bind, Option.bind_eq_some_iff, Prod.exists, takeField_eq_some, takeTag_eq_some,
    Option.pure_def, Option.some.injEq, Prod.mk.injEq]
  constructor
  · rintro ⟨d, _, rfl, t, _, rfl, o, _, rfl, rfl, rfl⟩
    exact ⟨d, t, o, rfl, by simp [FrameBody.fieldBits]⟩
  · rintro ⟨d, t, o, rfl, rfl⟩
    simp [FrameBody.fieldBits]

/-- The reader of the kind that a code names reads exactly the fields of that kind. -/
theorem takeBody_eq_some {kind : BitVec 3} : takeBody kind bs = some (body, rest) ↔
    kind = body.kindCode ∧ body.PayloadFits ∧ bs = body.fieldBits ++ rest := by
  constructor
  · unfold takeBody
    split
    case isTrue hk =>
      rw [takePut_eq_some]
      rintro ⟨d, inc, t, w, off, len, pay, rfl, hfits, hbs⟩
      exact ⟨hk, hfits, hbs⟩
    split
    case isTrue hk =>
      rw [takeGet_eq_some]
      rintro ⟨d, inc, t, w, off, len, rfl, hbs⟩
      exact ⟨hk, trivial, hbs⟩
    split
    case isTrue hk =>
      rw [takeSignal_eq_some]
      rintro ⟨d, inc, t, v, rfl, hbs⟩
      exact ⟨hk, trivial, hbs⟩
    split
    case isTrue hk =>
      rw [takeData_eq_some]
      rintro ⟨d, t, len, pay, rfl, hfits, hbs⟩
      exact ⟨hk, hfits, hbs⟩
    split
    case isTrue hk =>
      rw [takeDone_eq_some]
      rintro ⟨d, t, o, rfl, hbs⟩
      exact ⟨hk, trivial, hbs⟩
    case isFalse => nofun
  · rintro ⟨rfl, hfits, hbs⟩
    cases body with
    | put d inc t w off len pay => exact takePut_eq_some.mpr ⟨d, inc, t, w, off, len, pay, rfl, hfits, hbs⟩
    | get d inc t w off len => exact takeGet_eq_some.mpr ⟨d, inc, t, w, off, len, rfl, hbs⟩
    | signal d inc t v => exact takeSignal_eq_some.mpr ⟨d, inc, t, v, rfl, hbs⟩
    | data d t len pay => exact takeData_eq_some.mpr ⟨d, t, len, pay, rfl, hfits, hbs⟩
    | done d t o => exact takeDone_eq_some.mpr ⟨d, t, o, rfl, hbs⟩

end

/-- The bits that spell a frame are that frame's, and its extent is known. -/
theorem parseFrame_eq_some {bs : List Bool} {f : Frame} : parseFrame bs = some f ↔ bs = f.bits ∧ f.ExtentKnown := by
  constructor
  · unfold parseFrame
    split
    case h_1 => nofun
    case h_2 c r hclaim =>
      split
      case h_1 => nofun
      case h_2 k r' hkind =>
        split
        case h_2 => nofun
        case h_1 body hbody =>
          rw [Option.ite_none_right_eq_some, Option.some.injEq]
          rintro ⟨hclass, rfl⟩
          obtain ⟨rfl, hfits, rfl⟩ := takeBody_eq_some.mp hbody
          rw [takeClaim_eq_some.mp hclaim, takeField_eq_some.mp hkind, List.append_nil]
          exact ⟨rfl, hclass, hfits⟩
  · rintro ⟨rfl, hclass, hfits⟩
    have hbody : takeBody f.body.kindCode f.body.fieldBits = some (f.body, []) :=
      takeBody_eq_some.mpr ⟨rfl, hfits, (List.append_nil _).symm⟩
    simp only [parseFrame, Frame.bits, takeClaim_bits, takeField_sendBits, hbody, if_pos hclass]

/-- A frame with its CRC in its place is a run that ends in the 16 bits of the register over the rest (R123). -/
theorem checkFrame_eq_some {bs : List Bool} {f : Frame} : checkFrame bs = some f ↔ bs = f.wire ∧ f.ExtentKnown := by
  constructor
  · simp only [checkFrame, Option.ite_none_left_eq_some, Option.ite_none_right_eq_some, parseFrame_eq_some]
    rintro ⟨-, hcrc, hbits, hknown⟩
    refine ⟨?_, hknown⟩
    calc bs = bs.take (bs.length - 16) ++ bs.drop (bs.length - 16) := (List.take_append_drop _ _).symm
      _ = f.wire := by rw [← hcrc, hbits, Frame.wire]
  · rintro ⟨rfl, hknown⟩
    have hlen : f.wire.length - 16 = f.bits.length := by rw [Frame.wire_length, Nat.add_sub_cancel]
    have htake : f.wire.take f.bits.length = f.bits := List.take_left
    have hdrop : f.wire.drop f.bits.length = sendBits (crc f.bits) := List.drop_left
    rw [checkFrame, hlen, htake, hdrop, if_neg (by rw [Frame.wire_length]; omega), if_pos rfl]
    exact parseFrame_eq_some.mpr ⟨rfl, hknown⟩

/-- A good frame is what its sender drives, and then any bit time but an abort mark (R124). -/
theorem receive_eq_some {conds : List LineCond} {f : Frame} : receive conds = some f ↔
    (∃ after, after ≠ .abortMark ∧ conds = f.conds after) ∧ f.ExtentKnown := by
  constructor
  · unfold receive
    split
    case h_1 => nofun
    case h_2 => nofun
    case h_3 after hafter hlast =>
      split
      case h_1 => nofun
      case h_2 bs hbits =>
        rw [checkFrame_eq_some]
        rintro ⟨rfl, hknown⟩
        refine ⟨⟨after, hafter, ?_⟩, hknown⟩
        rw [Frame.conds, ← condBits_eq_some.mp hbits]
        exact (List.dropLast_append_getLast? after hlast).symm
  · rintro ⟨⟨after, hafter, rfl⟩, hknown⟩
    have hlast : (f.conds after).getLast? = some after := List.getLast?_concat
    have hbits : condBits (f.conds after).dropLast = some f.wire := by
      rw [Frame.conds, List.dropLast_concat, condBits_ofBit]
    unfold receive
    rw [hlast, hbits]
    cases after with
    | abortMark => exact absurd rfl hafter
    | _ => exact checkFrame_eq_some.mpr ⟨rfl, hknown⟩

/-! ### The extent (R124, R193) -/

theorem payloadExtent_inRange {len : BitVec 7} (h : lengthInRange len = true) (fixed : Nat) :
    payloadExtent fixed len.toNat = some (fixed + 8 * len.toNat + 16) := if_pos ((lengthInRange_iff len).mp h)

/-- A frame whose extent is known has as many bits, CRC included, as its extent says. -/
theorem frameExtent_known {f : Frame} (h : f.ExtentKnown) (rest : List LineCond) :
    frameExtent (f.bits.map LineCond.ofBit ++ rest) = some f.wire.length := by
  obtain ⟨c, body⟩ := f
  obtain ⟨hkind, hfits⟩ := h
  rw [frameExtent_bits, if_pos hkind, Frame.wire_length]
  cases body with
  | put d inc t w off len pay =>
    obtain ⟨hlen, hpay⟩ := hfits
    refine (payloadExtent_inRange hlen 79).trans (congrArg some ?_)
    rw [Frame.bits_length, FrameBody.fieldBits]
    simp only [List.length_append, sendBits_length, Tag.bits_length, sendBytes_length, hpay]
    omega
  | data d t len pay =>
    obtain ⟨hlen, hpay⟩ := hfits
    refine (payloadExtent_inRange hlen 42).trans (congrArg some ?_)
    rw [Frame.bits_length, FrameBody.fieldBits]
    simp only [List.length_append, sendBits_length, Tag.bits_length, sendBytes_length, hpay]
    omega
  | get d inc t w off len => simp [Frame.bits_length, FrameBody.fieldBits]
  | signal d inc t v => simp [Frame.bits_length, FrameBody.fieldBits]
  | done d t o => simp [Frame.bits_length, FrameBody.fieldBits]

/-- A code that names no kind leaves the extent unknown. -/
theorem frameExtent_noKind (c : Claim) {kind : BitVec 3} (h : kind = 0 ∨ kind = 6 ∨ kind = 7) (rest : List LineCond) :
    frameExtent ((c.bits ++ sendBits kind).map LineCond.ofBit ++ rest) = none := by
  have hfield : condField ((c.bits ++ sendBits kind).map LineCond.ofBit ++ rest) 11 3 = some kind.toNat :=
    condField_at c.bits kind [] rest 11 c.bits_length (by rw [List.append_nil])
  unfold frameExtent
  rw [hfield]
  rcases h with rfl | rfl | rfl <;> rcases condField _ 0 1 with _ | _ | _ | n <;> rfl

/-- A known extent has read the class and the kind from data bits. -/
theorem frameExtent_data {conds : List LineCond} {n : Nat} (h : frameExtent conds = some n) {k : Nat}
    (hk : k ∈ [0, 11, 12, 13]) : conds[k]? = some .bit0 ∨ conds[k]? = some .bit1 := by
  have hdata : ∀ b, conds[k]? = some (LineCond.ofBit b) → conds[k]? = some .bit0 ∨ conds[k]? = some .bit1 := by
    rintro (_ | _) hb
    · exact .inl hb
    · exact .inr hb
  obtain ⟨classBit, hclass⟩ : ∃ v, condField conds 0 1 = some v := by
    refine Option.ne_none_iff_exists'.mp fun hnone => ?_
    simp [frameExtent, hnone] at h
  obtain ⟨code, hkind⟩ : ∃ v, condField conds 11 3 = some v := by
    refine Option.ne_none_iff_exists'.mp fun hnone => ?_
    simp [frameExtent, hnone] at h
  simp only [List.mem_cons, List.not_mem_nil, or_false] at hk
  rcases hk with rfl | rfl | rfl | rfl
  · obtain ⟨b, hb⟩ := condField_data hclass 0 (by omega)
    exact hdata b hb
  · obtain ⟨b, hb⟩ := condField_data hkind 0 (by omega)
    exact hdata b hb
  · obtain ⟨b, hb⟩ := condField_data hkind 1 (by omega)
    exact hdata b hb
  · obtain ⟨b, hb⟩ := condField_data hkind 2 (by omega)
    exact hdata b hb

end Sys2Proof
end

section
/-! A round won or lost, a clash, and what the station drives (R104, R116, R117, R126, R133 to R135, R139 to R141). -/

namespace Sys2Proof.Machine

/-! ### The round (R104, R117, R134, R135) -/

section
variable {s : State} {h : Hand} (hst : s.line.state = .contending) (hhand : s.line.hand = some h)
include hst hhand

theorem roundWon_response {k : Fin 8} (hown : h.owner = .response k) :
    exec .roundWon s = .next (s.setLine { s.line with state := .sending }) := by
  show execRoundWon s = _
  simp only [execRoundWon, hst, hhand, hown]

theorem roundLost_response {k : Fin 8} (hown : h.owner = .response k) : exec .roundLost s =
    .next (s.setLine { s.line with state := .receiving, hand := none, rx := .receiving }) := by
  show execRoundLost s = _
  simp only [execRoundLost, hst, hhand, hown]

theorem roundWon_request {i : Fin 16} (hown : h.owner = .request i) :
    exec .roundWon s = .next ((s.setLine { s.line with state := .sending }).sendEntry i) := by
  show execRoundWon s = _
  simp only [execRoundWon, hst, hhand, hown]

theorem roundLost_request {i : Fin 16} (hown : h.owner = .request i) : exec .roundLost s = .next
    ((s.setLine { s.line with state := .receiving, hand := none, rx := .receiving }).entryRoundLost i) := by
  show execRoundLost s = _
  simp only [execRoundLost, hst, hhand, hown]

end

section
variable {s : State} {i : Fin 16}

theorem sendEntry_queued (hst : s.entries[i].state = .queued) : s.sendEntry i =
    { s.setEntry i { s.entries[i] with state := .sending } with
      requestQueue := s.requestQueue.filter fun k => k != i } := if_pos hst

theorem sendEntry_other (hst : s.entries[i].state ≠ .queued) : s.sendEntry i = s := if_neg hst

theorem entryRoundLost_releasing (hst : s.entries[i].state = .releasing) :
    s.entryRoundLost i = s.entryFreed i := if_pos hst

theorem entryRoundLost_other (hst : s.entries[i].state ≠ .releasing) : s.entryRoundLost i = s := if_neg hst

end

/-- Settles O22: the line moves first, and then the owner of the frame in hand by what it is. -/
theorem roundsWonAndLost : Obligations.RoundsWonAndLost := by
  unfold Obligations.RoundsWonAndLost
  refine fun s h hst hhand => ⟨fun k hown => ?response, fun i hown hentry => ?queued, fun i hown hentry => ?releasing⟩
  case response => exact ⟨roundWon_response hst hhand hown, roundLost_response hst hhand hown⟩
  case queued =>
    have hne : s.entries[i].state ≠ .releasing := by rw [hentry]; nofun
    rw [roundWon_request hst hhand hown, roundLost_request hst hhand hown]
    exact ⟨congrArg _ (sendEntry_queued hentry), congrArg _ (entryRoundLost_other hne)⟩
  case releasing =>
    have hne : s.entries[i].state ≠ .queued := by rw [hentry]; nofun
    rw [roundWon_request hst hhand hown, roundLost_request hst hhand hown]
    exact ⟨congrArg _ (sendEntry_other hne), congrArg _ (entryRoundLost_releasing hentry)⟩

/-! ### The clash (R140, R141) -/

section
variable {s : State} {i : Fin 16} {c : Fin 8}

theorem entryClashed_releasing (hst : s.entries[i].state = .releasing) : s.entryClashed i = s.entryFreed i := if_pos hst

/-- The frame goes back to the head of the Request Queue (R104). -/
theorem entryClashed_queued (hst : s.entries[i].state = .sending)
    (h : ∀ c, s.entries[i].owner = some c → s.channels[c].state ≠ .halting) : s.entryClashed i =
      ({ s with requestQueue := i :: s.requestQueue }).setEntry i { s.entries[i] with state := .queued } := by
  rw [State.entryClashed, if_neg (by rw [hst]; nofun), ownerHalting_eq_false h, if_neg Bool.false_ne_true]
  rfl

/-- Under a halt the entry is freed instead (R116). -/
theorem entryClashed_halting (hst : s.entries[i].state = .sending) (ho : s.entries[i].owner = some c)
    (h : s.channels[c].state = .halting) : s.entryClashed i = s.settledInHalt i c := by
  rw [State.entryClashed, if_neg (by rw [hst]; nofun), ownerHalting_eq_true ho h, if_pos rfl, dropEntry_halting ho h]

end

/-- LINE_SILENT follows the clash that the count silences the station at (R141). -/
def State.silenced (s : State) (clashes : Nat) : State :=
  if 16 ≤ clashes then s.post (.lineSilent clashes) else s

@[simp] theorem silenced_line (s : State) (clashes : Nat) : (s.silenced clashes).line = s.line := by
  unfold State.silenced
  split <;> rfl

theorem clash_sending {s : State} {h : Hand} (hst : s.line.state = .sending) (hhand : s.line.hand = some h) :
    exec .clash s = .next (((s.setLine s.line.afterClash).giveClash h.owner).silenced (s.line.clashes + 1)) := by
  show execClash s = _
  simp only [execClash, hst, hhand, State.silenced]
  exact (apply_ite Host.Outcome.next _ _ _).symm

theorem giveClash_line (s : State) (o : HandOwner) : (s.giveClash o).line = s.line := by
  cases o with
  | response k => rfl
  | request i => exact (RequesterFrame.entryClashed s i).line

/-! ### What the station drives (R126, R129, R133, R135, R139, R140) -/

theorem drives_aborting {s : State} (h : s.line.aborting = true) : drives s = [.abortMark] := if_pos h

section
variable {s : State} (h : s.line.aborting = false)
include h

theorem drives_contending {f : Hand} (hst : s.line.state = .contending) (hhand : s.line.hand = some f) :
    drives s = [.startMark, .startMark] ++ f.frame.claim.bits.map LineCond.ofBit := by
  simp only [drives, h, hst, hhand, Bool.false_eq_true, if_false]

theorem drives_sending {f : Hand} (hst : s.line.state = .sending) (hhand : s.line.hand = some f) :
    drives s = (f.frame.wire.drop 11).map LineCond.ofBit := by
  simp only [drives, h, hst, hhand, Bool.false_eq_true, if_false]

theorem drives_taken {sender : Station} (hst : s.line.state = .receiving) (hrx : s.line.rx = .good sender true) :
    drives s = [.bit0] := by
  simp only [drives, h, hst, hrx, Bool.false_eq_true, if_false]

theorem drives_receiving (hst : s.line.state = .receiving) (hrx : ∀ sender, s.line.rx ≠ .good sender true) :
    drives s = [] := by
  unfold drives
  rw [h, hst, if_neg Bool.false_ne_true]
  split
  case h_1 => contradiction
  case h_2 => contradiction
  case h_3 hgood => exact absurd hgood (hrx _)
  case h_4 => rfl

theorem drives_nothing (hst : s.line.state ∈ [LineState.offline, .joining, .idle, .silent]) : drives s = [] := by
  unfold drives
  rw [h, if_neg Bool.false_ne_true]
  split
  case h_4 => rfl
  all_goals rename_i hother _; rw [hother] at hst; simp at hst

end

/-- Settles O26: the line's part, the owner's part and LINE_SILENT in that order, after which the abort mark stands; and
what is driven is a matter of the line state, the frame in hand and the receipt. -/
theorem clashReturnsFrame : Obligations.ClashReturnsFrame := by
  unfold Obligations.ClashReturnsFrame
  refine ⟨?clash, fun s habort => ?drives⟩
  case clash =>
    rintro s u h silent hst hhand hu rfl
    have hclash : exec .clash s = .next ((u.giveClash h.owner).silenced (s.line.clashes + 1)) :=
      hu ▸ clash_sending hst hhand
    have hentries : u.entries = s.entries := by rw [hu]; rfl
    have hchannels : u.channels = s.channels := by rw [hu]; rfl
    have hqueue : u.requestQueue = s.requestQueue := by rw [hu]; rfl
    have habort : u.line.aborting = true := by rw [hu]; rfl
    rw [hclash, ← hentries, ← hchannels, ← hqueue]
    refine ⟨fun k hown => ?response, fun i hown hentry hrun => ?queued, fun i c hown hentry ho hhalt => ?halting,
      fun i hown hentry => ?releasing, ?aborts⟩
    case response => rw [hown]; rfl
    case queued => rw [hown, State.giveClash, entryClashed_queued hentry hrun]; rfl
    case halting => rw [hown, State.giveClash, entryClashed_halting hentry ho hhalt]; rfl
    case releasing => rw [hown, State.giveClash, entryClashed_releasing hentry]; rfl
    case aborts =>
      rintro t ⟨⟩
      exact drives_aborting (by rw [silenced_line, giveClash_line, habort])
  case drives =>
    rw [← LineCond.ofBit_eq]
    refine ⟨fun h hst hhand => ?_, fun h hst hhand => drives_sending habort hst hhand,
      fun sender hst hrx => drives_taken habort hst hrx, drives_receiving habort, drives_nothing habort⟩
    rw [drives_contending habort hst hhand, Claim.bits_eq]

end Sys2Proof.Machine
end

section
/-! A round of contention: bit by bit from the class bit, the stations left are those that no other lies below so far
(R121, R135, R136). -/

namespace Sys2Proof.Machine

/-- One bit of a round leaves those whose bit no other's lies below. -/
theorem mem_contendBit {claims : List (BitVec 11)} {bit : Nat} {c : BitVec 11} :
    c ∈ contendBit claims bit ↔ c ∈ claims ∧ ∀ d ∈ claims, c.getLsbD bit ≤ d.getLsbD bit := by
  rw [contendBit_eq]
  split
  case isTrue hzero =>
    obtain ⟨z, hz, hbit⟩ := List.any_eq_true.mp hzero
    rw [List.mem_filter]
    refine and_congr_right fun _ => ⟨fun hc d _ => ?_, fun hc => ?_⟩
    · rw [Bool.not_eq_true'] at hc
      rw [hc]
      exact Bool.false_le _
    · have hle := hc z hz
      rw [Bool.not_eq_true'] at hbit
      rw [hbit] at hle
      rw [Bool.not_eq_true', Bool.eq_false_of_le_false hle]
  case isFalse hone =>
    refine (and_iff_left_of_imp fun _ d hd => ?_).symm
    have hbit : d.getLsbD bit = true := by
      by_contra hd'
      exact hone (List.any_eq_true.mpr ⟨d, hd, by simpa using hd'⟩)
    rw [hbit]
    exact Bool.le_true _

/-- One bit of a round leaves somebody. -/
theorem contendBit_ne_nil {claims : List (BitVec 11)} (h : claims ≠ []) (bit : Nat) : contendBit claims bit ≠ [] := by
  rw [contendBit_eq]
  split
  case isTrue hzero =>
    obtain ⟨z, hz, hbit⟩ := List.any_eq_true.mp hzero
    exact List.ne_nil_of_mem (List.mem_filter.mpr ⟨hz, hbit⟩)
  case isFalse => exact h

/-- `left` are the words of `claims` that no other lies below in the bits from bit `low` up, and there is one. -/
structure Leading (claims left : List (BitVec 11)) (low : Nat) : Prop where
  ne_nil : left ≠ []
  mem_iff : ∀ c, c ∈ left ↔ c ∈ claims ∧ ∀ d ∈ claims, c.toNat / 2 ^ low ≤ d.toNat / 2 ^ low

/-- Before the first bit all words lead. -/
theorem leading_start {claims : List (BitVec 11)} (h : claims ≠ []) : Leading claims claims 11 where
  ne_nil := h
  mem_iff c := by
    refine (and_iff_left_of_imp fun _ d _ => ?_).symm
    rw [Nat.div_eq_of_lt c.isLt]
    exact Nat.zero_le _

/-- The bits from `low` up are those above it and then bit `low`. -/
theorem toNat_div_two_pow (c : BitVec 11) (low : Nat) :
    c.toNat / 2 ^ low = 2 * (c.toNat / 2 ^ (low + 1)) + (c.getLsbD low).toNat := by
  have hbit : (c.getLsbD low).toNat = c.toNat / 2 ^ low % 2 := by
    rw [BitVec.getLsbD, Nat.toNat_testBit]
  rw [hbit, Nat.pow_succ, ← Nat.div_div_eq_div_mul, Nat.div_add_mod]

theorem leading_contendBit {claims left : List (BitVec 11)} {low : Nat} (h : Leading claims left (low + 1)) :
    Leading claims (contendBit left low) low where
  ne_nil := contendBit_ne_nil h.ne_nil low
  mem_iff c := by
    have hle : ∀ b b' : Bool, b ≤ b' ↔ b.toNat ≤ b'.toNat := by decide
    rw [mem_contendBit]
    constructor
    · rintro ⟨hc, hlow⟩
      obtain ⟨hcl, hmin⟩ := (h.mem_iff c).mp hc
      refine ⟨hcl, fun d hd => ?_⟩
      rw [toNat_div_two_pow c, toNat_div_two_pow d]
      have hcd := hmin d hd
      by_cases hdl : d ∈ left
      · have := (hle _ _).mp (hlow d hdl)
        omega
      · have hne : c.toNat / 2 ^ (low + 1) ≠ d.toNat / 2 ^ (low + 1) := fun he =>
          hdl ((h.mem_iff d).mpr ⟨hd, fun e hee => he ▸ hmin e hee⟩)
        have := Bool.toNat_lt (c.getLsbD low)
        omega
    · rintro ⟨hcl, hmin⟩
      have hmin' : ∀ d ∈ claims, 2 * (c.toNat / 2 ^ (low + 1)) + (c.getLsbD low).toNat ≤
          2 * (d.toNat / 2 ^ (low + 1)) + (d.getLsbD low).toNat := fun d hd => by
        rw [← toNat_div_two_pow, ← toNat_div_two_pow]; exact hmin d hd
      have hc : c ∈ left := (h.mem_iff c).mpr ⟨hcl, fun d hd => by
        have := hmin' d hd
        have := Bool.toNat_lt (d.getLsbD low)
        omega⟩
      refine ⟨hc, fun d hd => (hle _ _).mpr ?_⟩
      obtain ⟨hdl, hdmin⟩ := (h.mem_iff d).mp hd
      have := hmin' d hdl
      have := hdmin c hcl
      omega

/-- The rest of a round, from the bit below `low` down. -/
theorem leading_foldl {claims : List (BitVec 11)} (low : Nat) : ∀ {left : List (BitVec 11)}, Leading claims left low →
    Leading claims ((List.range low).reverse.foldl contendBit left) 0 := by
  induction low with
  | zero => exact id
  | succ low ih =>
    intro left h
    rw [List.range_succ, List.reverse_append]
    exact ih (leading_contendBit h)

/-- The round's eleven bits leave the lowest words. -/
theorem leading_contend {claims : List (BitVec 11)} (h : claims ≠ []) : Leading claims (contend claims) 0 :=
  leading_foldl 11 (leading_start h)

/-- Settles O23: what the line carries goes by the table of two conditions, and a round by induction over its bits. -/
theorem lowestClaimWins : Obligations.LowestClaimWins := by
  unfold Obligations.LowestClaimWins
  refine ⟨fun c => ⟨rfl, ?_, ?_, LineCond.combine_undriven c⟩, rfl, fun c d => ⟨LineCond.combine_comm c d, ?_⟩,
    carried_ofBit, fun claims h => ⟨(leading_contend h).ne_nil, fun c => ?_⟩⟩
  · cases c <;> simp [LineCond.combine]
  · cases c <;> rfl
  · show LineCond.combine c (LineCond.combine d .undriven) = LineCond.combine c d
    rw [LineCond.combine_undriven]
  · simpa using (leading_contend h).mem_iff c

end Sys2Proof.Machine
end

section
/-! A frame as it goes on the line and as it is received (R122 to R124, R193, R194). -/

namespace Sys2Proof.Machine

/-- A known extent, kind by kind. -/
theorem extentKnown_iff (f : Frame) : f.ExtentKnown ↔
    match f.body with
    | .put _ _ _ _ _ len pay => f.claim.request = true ∧ 1 ≤ len.toNat ∧ len.toNat ≤ 64 ∧ pay.length = len.toNat
    | .get .. => f.claim.request = true
    | .signal .. => f.claim.request = true
    | .data _ _ len pay => f.claim.request = false ∧ 1 ≤ len.toNat ∧ len.toNat ≤ 64 ∧ pay.length = len.toNat
    | .done .. => f.claim.request = false := by
  have hparts : f.ExtentKnown ↔ f.claim.request = f.body.isRequest ∧ f.body.PayloadFits :=
    ⟨fun h => ⟨h.kind, h.payload⟩, fun h => ⟨h.1, h.2⟩⟩
  rw [hparts]
  cases f.body <;> simp only [FrameBody.isRequest, FrameBody.PayloadFits, lengthInRange_iff, and_assoc, and_true]

/-- The bits of a frame, field by field. -/
theorem frame_bits_eq (c : Claim) (body : FrameBody) :
    (Frame.mk c body).bits = [c.request] ++ msbFirst c.rank ++ msbFirst c.sender ++
    match body with
    | .put d inc t w off len pay => msbFirst 1#3 ++ msbFirst d ++ msbFirst inc ++ msbFirst t.entry ++ msbFirst t.epoch ++
        msbFirst w ++ msbFirst off ++ msbFirst len ++ pay.flatMap msbFirst
    | .get d inc t w off len => msbFirst 2#3 ++ msbFirst d ++ msbFirst inc ++ msbFirst t.entry ++ msbFirst t.epoch ++
        msbFirst w ++ msbFirst off ++ msbFirst len
    | .signal d inc t value => msbFirst 3#3 ++ msbFirst d ++ msbFirst inc ++ msbFirst t.entry ++ msbFirst t.epoch ++
        msbFirst value
    | .data d t len pay => msbFirst 4#3 ++ msbFirst d ++ msbFirst t.entry ++ msbFirst t.epoch ++ msbFirst len ++
        pay.flatMap msbFirst
    | .done d t o => msbFirst 5#3 ++ msbFirst d ++ msbFirst t.entry ++ msbFirst t.epoch ++ msbFirst o := by
  rw [Frame.bits, Claim.bits_eq]
  refine congrArg _ ?_
  cases body <;>
    simp only [FrameBody.kindCode, FrameBody.fieldBits, Tag.bits, sendBits_eq, sendBytes_eq, List.append_assoc] <;> rfl

/-- The extent of the bits of any frame, kind by kind. -/
theorem frameExtent_eq (c : Claim) (body : FrameBody) (rest : List LineCond) :
    frameExtent ((Frame.mk c body).bits.map LineCond.ofBit ++ rest) =
      match c.request, body with
      | true, .put _ _ _ _ _ len _ =>
        if 1 ≤ len.toNat ∧ len.toNat ≤ 64 then some (79 + 8 * len.toNat + 16) else none
      | true, .get .. => some (79 + 16)
      | true, .signal .. => some (75 + 16)
      | false, .data _ _ len _ =>
        if 1 ≤ len.toNat ∧ len.toNat ≤ 64 then some (42 + 8 * len.toNat + 16) else none
      | false, .done .. => some (38 + 16)
      | _, _ => none := by
  rw [frameExtent_bits]
  cases c.request <;> cases body <;> rfl

/-- Settles O49: the receiver inverts the encoder field by field (`receive_eq_some`), and the extent is read from the
fields in their places. -/
theorem frameRoundTrip : Obligations.FrameRoundTrip := by
  unfold Obligations.FrameRoundTrip
  rw [← LineCond.ofBit_eq]
  have hwire : ∀ f : Frame, f.wire = f.bits ++ msbFirst (crc f.bits) := fun f => by rw [Frame.wire, sendBits_eq]
  exact ⟨⟨rfl, fun bits bit => (crc_append bits bit).trans (crcStep_eq _ _)⟩, frame_bits_eq,
    fun f after => ⟨hwire f, rfl⟩, fun conds f => receive_eq_some.trans (and_congr_right fun _ => extentKnown_iff f),
    frameExtent_eq, fun c kind rest h => sendBits_eq kind ▸ frameExtent_noKind c h rest,
    fun conds n h k hk => frameExtent_data h hk⟩

end Sys2Proof.Machine
end

section
/-! How a receipt begins and ends in each line state, and the bit time that is the end of a frame (R125, R127, R130 to
R132, R137, R142). -/

namespace Sys2Proof.Machine

/-! ### A driven condition is seen (R127, R130, R131) -/

section
variable {l : Line} {seen : LineCond} (hseen : seen ≠ .undriven)
include hseen

theorem afterMark_idle (hst : l.state = .idle) :
    l.afterMark seen = { l with state := .receiving, rx := .receiving, aborting := false } := by
  simp only [Line.afterMark, if_neg hseen, hst]

theorem afterMark_joining (hst : l.state = .joining) : l.afterMark seen =
    { l with joinTimer := some 0, rx := l.rx.afterMark seen, aborting := false } := by
  simp only [Line.afterMark, if_neg hseen, hst]

theorem afterMark_silent (hst : l.state = .silent) :
    l.afterMark seen = { l with rx := l.rx.afterMark seen, aborting := false } := by
  simp only [Line.afterMark, if_neg hseen, hst]

theorem afterMark_other
    (hst : l.state = .offline ∨ l.state = .contending ∨ l.state = .sending ∨ l.state = .receiving) :
    l.afterMark seen = l := by
  rcases hst with hst | hst | hst | hst <;> simp only [Line.afterMark, if_neg hseen, hst]

end

/-! ### The end of a frame (R130, R132, R137, R142) -/

/-- Where a FRAME_END does not arise it changes nothing. -/
theorem frameEnd_ignored {s : State} {conds : List LineCond} (h : ¬ (endsFrame conds = true ∧ s.line.agrees conds = true)) :
    exec (.frameEnd conds) s = .next s := if_neg h

theorem frameEnd_arises {s : State} {conds : List LineCond} (hend : endsFrame conds = true)
    (hagrees : s.line.agrees conds = true) : exec (.frameEnd conds) s = .next s.endFrame := if_pos ⟨hend, hagrees⟩

/-- The end of a good frame's receipt is the end of that frame. -/
theorem agrees_good {l : Line} {conds : List LineCond} {sender : Station} {accept : Bool}
    (hrx : l.rx = .good sender accept) :
    l.agrees conds = true ↔ ∃ f, receivedFrame conds = some f ∧ f.claim.sender = sender := by
  simp [Line.agrees, hrx]

/-- The end of another receipt is that of a bad frame. -/
theorem agrees_receiving {l : Line} {conds : List LineCond} (hrx : l.rx = .receiving) :
    l.agrees conds = true ↔ receivedFrame conds = none := by
  simp [Line.agrees, hrx]

theorem agrees_noReceipt {l : Line} {conds : List LineCond} (hrx : l.rx = .nothing ∨ l.rx = .outOfStep) :
    l.agrees conds = true := by
  rcases hrx with hrx | hrx <;> simp only [Line.agrees, hrx]

theorem inReceipt_false {l : Line} (hrx : l.rx = .nothing ∨ l.rx = .outOfStep) : l.inReceipt = false := by
  rcases hrx with hrx | hrx <;> simp only [Line.inReceipt, hrx]

theorem goodAtEnd_false {l : Line} (hrx : l.rx = .nothing ∨ l.rx = .outOfStep) : l.goodAtEnd = false := by
  rcases hrx with hrx | hrx <;> simp only [Line.goodAtEnd, hrx]

section
variable {s : State}

theorem endFrame_idle (hst : s.line.state = .idle) : s.endFrame = s.setLine { s.line with aborting := false } := by
  simp only [State.endFrame, hst]

theorem endFrame_receiving (hst : s.line.state = .receiving) : s.endFrame =
    s.setLine { s.line with state := .idle, lastWinner := s.line.winnerAtEnd, rx := .nothing } := by
  simp only [State.endFrame, hst]

theorem endFrame_other (hst : s.line.state = .offline ∨ s.line.state = .contending ∨ s.line.state = .sending) :
    s.endFrame = s := by
  rcases hst with hst | hst | hst <;> simp only [State.endFrame, hst]

theorem endFrame_joining_good (hst : s.line.state = .joining) (hgood : s.line.goodAtEnd = true) : s.endFrame =
    (s.setLine { s.line with state := .idle, lastWinner := s.line.winnerAtEnd, joinTimer := none, rx := .nothing }).post
      (.lineJoined .frame s.line.winnerAtEnd) := by
  simp only [State.endFrame, hst, hgood, if_true]

theorem endFrame_joining_bad (hst : s.line.state = .joining) (hgood : s.line.goodAtEnd = false)
    (hrx : s.line.inReceipt = true) : s.endFrame = s.setLine { s.line with rx := .nothing } := by
  simp only [State.endFrame, hst, hgood, hrx, Bool.false_eq_true, if_false, if_true]

theorem endFrame_silent (hst : s.line.state = .silent) (hrx : s.line.inReceipt = true) : s.endFrame =
    s.setLine { s.line with lastWinner := s.line.winnerAtEnd, rx := .nothing } := by
  simp only [State.endFrame, hst, hrx, if_true]

/-- With no receipt under way an end is over a standing abort mark alone (log 29). -/
theorem endFrame_noReceipt (hst : s.line.state = .idle ∨ s.line.state = .joining ∨ s.line.state = .silent)
    (hrx : s.line.rx = .nothing ∨ s.line.rx = .outOfStep) : s.endFrame = s.setLine { s.line with aborting := false } := by
  rcases hst with hst | hst | hst
  · exact endFrame_idle hst
  · simp only [State.endFrame, hst, goodAtEnd_false hrx, inReceipt_false hrx, Bool.false_eq_true, if_false]
  · simp only [State.endFrame, hst, inReceipt_false hrx, Bool.false_eq_true, if_false]

end

/-- The joining timer's expiry with no receipt under way. -/
theorem joiningTimerExpiry_quiet {s : State} (hst : s.line.state = .joining)
    (hrx : s.line.rx = .nothing ∨ s.line.rx = .outOfStep) : exec .joiningTimerExpiry s = .next ((s.setLine
      { s.line with state := .idle, joinTimer := none, rx := .nothing, aborting := false }).post
        (.lineJoined .quiet s.line.lastWinner)) := if_pos ⟨hst, inReceipt_false hrx⟩

/-! ### Where the end of a frame is (R124, R125, R193) -/

section
variable {conds : List LineCond}

theorem endsFrame_unknown (h : frameExtent conds = none) : endsFrame conds = endsQuiet 0 conds := by
  simp only [endsFrame, h]

theorem endsFrame_reached {n : Nat} (h : frameExtent conds = some n) (hreached : reachedSlot conds n = true) :
    endsFrame conds = true ↔ conds.length = n + 5 := by
  simp only [endsFrame, h, hreached, if_true, beq_iff_eq]

theorem endsFrame_cut {n : Nat} (h : frameExtent conds = some n) (hcut : ¬ reachedSlot conds n = true) :
    endsFrame conds = endsQuiet 0 conds := by
  simp only [endsFrame, h, if_neg hcut]

theorem receivedFrame_eq_some {f : Frame} : receivedFrame conds = some f ↔
    ∃ n, frameExtent conds = some n ∧ receive (conds.take (n + 1)) = some f := Option.bind_eq_some_iff

end

section
variable {f : Frame} {after : LineCond} (h : receive (f.conds after) = some f) (more : List LineCond)
include h

/-- The extent of a good frame, whatever follows it. -/
theorem frameExtent_good : frameExtent (f.conds after ++ more) = some f.wire.length := by
  obtain ⟨-, hknown⟩ := receive_eq_some.mp h
  have hsplit : f.conds after ++ more =
      f.bits.map LineCond.ofBit ++ ((sendBits (crc f.bits)).map LineCond.ofBit ++ [after] ++ more) := by
    simp only [Frame.conds, Frame.wire, List.map_append, List.append_assoc]
  rw [hsplit, frameExtent_known hknown]

theorem receivedFrame_good : receivedFrame (f.conds after ++ more) = some f := by
  refine receivedFrame_eq_some.mpr ⟨_, frameExtent_good h more, ?_⟩
  have hlen : f.wire.length + 1 = (f.conds after).length := by simp [Frame.conds]
  rw [hlen, List.take_left, h]

theorem reachedSlot_good : reachedSlot (f.conds after ++ more) f.wire.length = true := by
  obtain ⟨⟨after', hafter, he⟩, -⟩ := receive_eq_some.mp h
  obtain rfl : after = after' := by simpa [Frame.conds] using he
  refine (reachedSlot_iff _ _).mpr ⟨by simp [Frame.conds], by simpa [Frame.conds] using hafter, fun k hk => ?_⟩
  have hbit : (f.conds after ++ more)[k]? = some (LineCond.ofBit f.wire[k]) := by
    rw [Frame.conds, List.append_assoc, List.getElem?_append_left (by rwa [List.length_map])]
    simp [-Frame.wire_length, hk]
  rw [hbit]
  cases f.wire[k] <;> exact ⟨nofun, nofun⟩

end

/-- The two bit times after a good frame's CRC and the three of its end mark end it (R125, R193). -/
theorem endsFrame_good {f : Frame} {after slot : LineCond} {mark : List LineCond}
    (h : receive (f.conds after) = some f) (hmark : mark.length = 3) :
    endsFrame (f.conds after ++ slot :: mark) = true := by
  refine (endsFrame_reached (frameExtent_good h _) (reachedSlot_good h _)).mpr ?_
  simp [Frame.conds, hmark]

/-- Settles O29: each event by the line state and the receipt, and the end of a frame by its extent and how far it
came. -/
theorem receiptsBeginAndEnd : Obligations.ReceiptsBeginAndEnd := by
  unfold Obligations.ReceiptsBeginAndEnd
  refine ⟨fun s seen hseen => ?begins, fun s conds hend => ⟨?good, ?bad, ?noReceipt⟩, fun s conds hnot => ?ignored,
    fun s hst hrx => joiningTimerExpiry_quiet hst hrx, ?ends, fun conds f => receivedFrame_eq_some, ?whole⟩
  case begins =>
    have hline : ∀ {l}, s.line.afterMark seen = l → exec (.startMark seen) s = .next (s.setLine l) :=
      fun hl => congrArg (fun l => Host.Outcome.next (s.setLine l)) hl
    refine ⟨fun hst => hline (afterMark_idle hseen hst), ?_, fun hst => hline (afterMark_other hseen hst)⟩
    rintro rx rfl
    exact ⟨fun hst => hline (afterMark_joining hseen hst), fun hst => hline (afterMark_silent hseen hst)⟩
  case good =>
    intro sender accept f hrx hreceived hsender
    have hwinner : s.line.winnerAtEnd = sender := by simp only [Line.winnerAtEnd, hrx]
    have hgood : s.line.goodAtEnd = true := by simp only [Line.goodAtEnd, hrx]
    have hin : s.line.inReceipt = true := by simp only [Line.inReceipt, hrx]
    rw [frameEnd_arises hend ((agrees_good hrx).mpr ⟨f, hreceived, hsender⟩), ← hwinner]
    exact ⟨fun hst => congrArg _ (endFrame_receiving hst), fun hst => congrArg _ (endFrame_joining_good hst hgood),
      fun hst => congrArg _ (endFrame_silent hst hin), fun hst => congrArg _ (endFrame_idle hst)⟩
  case bad =>
    intro hrx hreceived
    have hwinner : s.line.winnerAtEnd = s.line.lastWinner := by simp only [Line.winnerAtEnd, hrx]
    have hgood : s.line.goodAtEnd = false := by simp only [Line.goodAtEnd, hrx]
    have hin : s.line.inReceipt = true := by simp only [Line.inReceipt, hrx]
    rw [frameEnd_arises hend ((agrees_receiving hrx).mpr hreceived)]
    refine ⟨fun hst => congrArg _ ?_, fun hst => congrArg _ ?_, fun hst => congrArg _ (endFrame_idle hst)⟩
    · rw [endFrame_receiving hst, hwinner]
    · rcases hst with hst | hst
      · exact endFrame_joining_bad hst hgood hin
      · rw [endFrame_silent hst hin, hwinner]
  case noReceipt =>
    intro hst hrx
    rw [frameEnd_arises hend (agrees_noReceipt hrx), endFrame_noReceipt hst hrx]
  case ignored =>
    by_cases harises : endsFrame conds = true ∧ s.line.agrees conds = true
    · obtain ⟨hend, hagrees⟩ := harises
      have hother : s.line.state = .offline ∨ s.line.state = .contending ∨ s.line.state = .sending := by
        rcases hnot with hnot | hst | hst | hst | ⟨hrx, hreceived⟩ | ⟨sender, accept, hrx, hsender⟩
        · rw [hend] at hnot; cases hnot
        · exact .inl hst
        · exact .inr (.inl hst)
        · exact .inr (.inr hst)
        · exact absurd ((agrees_receiving hrx).mp hagrees) hreceived
        · obtain ⟨f, hreceived, hf⟩ := (agrees_good hrx).mp hagrees
          exact absurd hf (hsender f hreceived)
      rw [frameEnd_arises hend hagrees, endFrame_other hother]
    · exact frameEnd_ignored harises
  case ends =>
    rintro conds quiet rfl
    refine ⟨fun hunknown => ?_, fun n reached hknown hreached => ?_⟩
    · rw [endsFrame_unknown hunknown]
      exact endsQuiet_iff
    · rw [hreached, ← reachedSlot_iff]
      refine ⟨endsFrame_reached hknown, fun hcut => ?_⟩
      rw [endsFrame_cut hknown hcut]
      exact endsQuiet_iff
  case whole =>
    rintro f after slot mark conds h hmark rfl
    refine ⟨endsFrame_good h hmark, receivedFrame_good h _, ?_⟩
    simp only [Frame.bitTimes, Frame.conds, List.length_append, List.length_map, Frame.wire_length, List.length_cons,
      List.length_nil, hmark]
    omega

end Sys2Proof.Machine
end

section
/-! The Frame Buffer Pool by its owners, and the engine's predicate in two parts: what it says of the jobs and what it
says of an idle engine (R146 to R148, R150 to R155). -/

namespace Sys2Proof.Machine

/-! ### The Pool by its owners (R146, R148) -/

/-- The buffer that an owner's record names. -/
def State.namedBuffer (s : State) : BufferOwner → Option (Fin 24)
  | .operation k => (s.slots[k]).bind Operation.buffer
  | .entry i => s.entries[i].buffer

theorem poolInv_iff (s : State) : PoolInv s ↔
    (∀ (b : Fin 24) (o : BufferOwner), s.buffers[b].owner = some o ↔ s.namedBuffer o = some b) ∧
    ∀ i : Fin 16, s.entries[i].state = .free → s.namedBuffer (.entry i) = none := by
  constructor
  · rintro ⟨hentry, hop, hfree⟩
    refine ⟨fun b o => ?_, hfree⟩
    cases o with
    | operation k => exact hop b k
    | entry i => exact hentry b i
  · rintro ⟨hnamed, hfree⟩
    exact ⟨fun b i => hnamed b (.entry i), fun b k => hnamed b (.operation k), hfree⟩

theorem returnBuffer_owner (s : State) (given : Option (Fin 24)) (b : Fin 24) :
    (s.returnBuffer given).buffers[b].owner = if given = some b then none else s.buffers[b].owner := by
  cases given with
  | none => rfl
  | some b' =>
    rw [State.returnBuffer, State.setBuffer_buffers, getElem_set_fin]
    simp only [Option.some.injEq]
    split <;> rfl

theorem giveBuffer_owner (s : State) (given : Option (Fin 24)) (o : BufferOwner) (b : Fin 24) :
    (s.giveBuffer given o).buffers[b].owner = if given = some b then some o else s.buffers[b].owner := by
  cases given with
  | none => rfl
  | some b' =>
    rw [State.giveBuffer, State.setBuffer_buffers, getElem_set_fin]
    simp only [Option.some.injEq]
    split <;> rfl

/-- A payload changes a buffer's bytes alone. -/
theorem fillBuffer_owner (s : State) (given : Option (Fin 24)) (payload : List Byte) (b : Fin 24) :
    (s.fillBuffer given payload).buffers[b].owner = s.buffers[b].owner := by
  cases given with
  | none => rfl
  | some b' =>
    rw [State.fillBuffer, State.setBuffer_buffers, getElem_set_fin]
    split
    · rename_i h; rw [← h]
    · rfl

section
variable {s t : State} (h : PoolInv s)
include h

/-- Several owners' records let go of their buffers, and the buffers of their owners. -/
theorem PoolInv.released {gone : BufferOwner → Bool}
    (hnamed : ∀ o, t.namedBuffer o = if gone o = true then none else s.namedBuffer o)
    (howner : ∀ b : Fin 24, t.buffers[b].owner = s.buffers[b].owner.filter fun o => !gone o)
    (hfree : ∀ i : Fin 16, t.entries[i].state = .free → s.entries[i].state = .free ∨ gone (.entry i) = true) :
    PoolInv t := by
  obtain ⟨hholds, hnone⟩ := (poolInv_iff s).mp h
  refine (poolInv_iff t).mpr ⟨fun b o => ?_, fun i hi => ?_⟩
  · rw [howner, hnamed, Option.filter_eq_some_iff, hholds]
    cases gone o <;> simp
  · rw [hnamed]
    rcases hfree i hi with hs | hg
    · rw [hnone i hs, ite_self]
    · rw [if_pos hg]

/-- No record and no buffer changes hands. -/
theorem PoolInv.stays (hnamed : ∀ o, t.namedBuffer o = s.namedBuffer o)
    (howner : ∀ b : Fin 24, t.buffers[b].owner = s.buffers[b].owner)
    (hfree : ∀ i : Fin 16, t.entries[i].state = .free → s.entries[i].state = .free) : PoolInv t :=
  h.released (gone := fun _ => false) hnamed (fun b => by rw [howner]; cases s.buffers[b].owner <;> rfl)
    fun i hi => .inl (hfree i hi)

/-- One owner's record lets go of its buffer, which returns to the Pool (R148). -/
theorem PoolInv.returned {o : BufferOwner}
    (hnamed : ∀ o', t.namedBuffer o' = if o' = o then none else s.namedBuffer o')
    (howner : ∀ b : Fin 24, t.buffers[b].owner = if s.namedBuffer o = some b then none else s.buffers[b].owner)
    (hfree : ∀ i : Fin 16, t.entries[i].state = .free → s.entries[i].state = .free ∨ .entry i = o) : PoolInv t := by
  obtain ⟨hholds, -⟩ := (poolInv_iff s).mp h
  refine h.released (gone := fun o' => decide (o' = o)) (by simpa using hnamed) (fun b => ?_) (by simpa using hfree)
  rw [howner]
  by_cases hb : s.namedBuffer o = some b
  · rw [if_pos hb, (hholds b o).mpr hb]
    simp [Option.filter]
  · rw [if_neg hb]
    cases ho : s.buffers[b].owner with
    | none => rfl
    | some o' =>
      have hne : o' ≠ o := fun e => hb ((hholds b o).mp (e ▸ ho))
      simp [Option.filter, hne]

/-- An owner that held none is given a buffer that nobody held (R148). -/
theorem PoolInv.given {o : BufferOwner} {given : Option (Fin 24)} (hfresh : s.namedBuffer o = none)
    (hunheld : ∀ b, given = some b → s.buffers[b].owner = none)
    (hnamed : ∀ o', t.namedBuffer o' = if o' = o then given else s.namedBuffer o')
    (howner : ∀ b : Fin 24, t.buffers[b].owner = if given = some b then some o else s.buffers[b].owner)
    (hfree : ∀ i : Fin 16, t.entries[i].state = .free → s.entries[i].state = .free ∧ .entry i ≠ o) : PoolInv t := by
  obtain ⟨hholds, hnone⟩ := (poolInv_iff s).mp h
  refine (poolInv_iff t).mpr ⟨fun b o' => ?_, fun i hi => ?_⟩
  · rw [hnamed, howner]
    by_cases hb : given = some b
    · have hother : s.namedBuffer o' ≠ some b := fun e => by
        have := (hholds b o').mpr e
        rw [hunheld b hb] at this
        cases this
      by_cases ho : o' = o
      · simp [hb, ho]
      · simp [hb, ho, hother, eq_comm (a := o)]
    · rw [if_neg hb, hholds]
      by_cases ho : o' = o
      · simp [ho, hb, hfresh]
      · simp [ho]
  · obtain ⟨hs, hne⟩ := hfree i hi
    rw [hnamed, if_neg hne, hnone i hs]

end

/-- The Pool gives a buffer that nobody holds (R148). -/
theorem freeBuffer_unheld {s : State} {b : Fin 24} (h : freeBuffer s = some b) : s.buffers[b].owner = none :=
  Option.isNone_iff_eq_none.mp (List.find?_some (p := fun b : Fin 24 => s.buffers[b].owner.isNone) h)

/-! ### The engine's jobs (R150 to R153) -/

/-- A job that has not been started has moved nothing (R150). -/
def Job.Unstarted (j : Job) : Prop := j.phase = .listed ∧ j.moved = 0 ∧ j.lastCycle = false

/-- LBREQ, the timer and the phase agree with the started job and the grant, and no listed job has been started. -/
def JobsOk (e : Engine) (lbgnt : Bool) : Prop :=
  e.lbreq = e.job.isSome ∧ (e.timer.isSome = true ↔ ∃ j, e.job = some j ∧ j.phase = .requesting) ∧
  (∀ j, e.job = some j → j.phase ≠ .listed ∧ (j.phase = .requesting → lbgnt = false ∧ j.lastCycle = false) ∧
    (j.phase = .moving → (j.lastCycle = true ↔ lbgnt = false))) ∧
  ∀ j ∈ e.responder ++ e.requester, j.Unstarted

/-- An idle engine has no job to select (R152). -/
def IdleOk (e : Engine) : Prop := e.job = none → e.responder = [] ∧ e.requester = []

theorem engineOk_iff (s : State) : EngineOk s ↔ JobsOk s.engine s.pins.lbgnt ∧ IdleOk s.engine := by
  simp only [EngineOk, JobsOk, IdleOk, Job.Unstarted, and_assoc]

theorem unstarted_listed (kind : JobKind) (cls : JobClass) (address length : Nat) (buffer : Option (Fin 24))
    (owner : JobOwner) (slot : Option Nat) : (Job.listed kind cls address length buffer owner slot).Unstarted :=
  ⟨rfl, rfl, rfl⟩

/-- The jobs of an idle engine are in step exactly where LBREQ and the timer stand at rest and nothing listed has
started. -/
theorem jobsOk_idle_iff {e : Engine} {lbgnt : Bool} (hnone : e.job = none) : JobsOk e lbgnt ↔
    e.lbreq = false ∧ e.timer = none ∧ ∀ j ∈ e.responder ++ e.requester, j.Unstarted := by
  simp [JobsOk, hnone]

/-- A job started: REQUESTING, or MOVING at once where the grant stands (R152, R153). -/
theorem jobsOk_started {e : Engine} (hlisted : ∀ j ∈ e.responder ++ e.requester, j.Unstarted) {j : Job}
    (hj : j.Unstarted) (lbgnt : Bool) (limit : Nat) : JobsOk (engineStarted e lbgnt limit j) lbgnt := by
  obtain ⟨-, -, hlast⟩ := hj
  cases lbgnt <;> simp [JobsOk, engineStarted, hlast] <;> simpa using hlisted

/-- The started job goes on in a phase that agrees with the grant. -/
theorem jobsOk_phase {e : Engine} {lbgnt lbgnt' : Bool} {j j' : Job} {timer : Option Nat} (h : JobsOk e lbgnt)
    (hj : e.job = some j) (hphase : j'.phase ≠ .listed) (htimer : timer.isSome = true ↔ j'.phase = .requesting)
    (hrequesting : j'.phase = .requesting → lbgnt' = false ∧ j'.lastCycle = false)
    (hmoving : j'.phase = .moving → (j'.lastCycle = true ↔ lbgnt' = false)) :
    JobsOk { e with job := some j', timer := timer } lbgnt' := by
  obtain ⟨hlbreq, -, -, hlisted⟩ := h
  refine ⟨by rw [hlbreq, hj]; rfl, by simpa using htimer, ?_, hlisted⟩
  rintro _ ⟨⟩
  exact ⟨hphase, hrequesting, hmoving⟩

/-- The requester list shrinks or stays, and nothing else of the engine changes. -/
structure Engine.Shrunk (e e' : Engine) : Prop where
  responder : e'.responder = e.responder
  requester : e'.requester ⊆ e.requester
  job : e'.job = e.job
  timer : e'.timer = e.timer
  lbreq : e'.lbreq = e.lbreq

theorem Engine.Shrunk.refl (e : Engine) : e.Shrunk e := ⟨rfl, List.Subset.refl _, rfl, rfl, rfl⟩

theorem Engine.Shrunk.jobs {e e' : Engine} {lbgnt : Bool} (h : e.Shrunk e') (hs : JobsOk e lbgnt) : JobsOk e' lbgnt := by
  unfold JobsOk at hs ⊢
  rw [h.responder, h.job, h.timer, h.lbreq]
  obtain ⟨hlbreq, htimer, hjob, hlisted⟩ := hs
  refine ⟨hlbreq, htimer, hjob, fun j hj => hlisted j ?_⟩
  exact (List.mem_append.mp hj).elim (List.mem_append_left _) fun hq => List.mem_append_right _ (h.requester hq)

theorem Engine.Shrunk.idle {e e' : Engine} (h : e.Shrunk e') (hs : IdleOk e) : IdleOk e' := by
  unfold IdleOk at hs ⊢
  rw [h.job, h.responder]
  intro hnone
  obtain ⟨hr, hq⟩ := hs hnone
  exact ⟨hr, List.subset_nil.mp (hq ▸ h.requester)⟩

/-! ### Selecting and queueing (R151, R152) -/

/-- With a job started or none to start the arbiter does nothing, and otherwise it starts one that has not been. -/
theorem selectJob_jobs {s : State} {lbgnt : Bool} (hg : s.pins.lbgnt = lbgnt) (h : JobsOk s.engine lbgnt) :
    JobsOk s.selectJob.engine lbgnt := by
  subst hg
  unfold State.selectJob
  split
  case h_1 => exact h
  case h_2 hnone =>
    obtain ⟨-, -, hlisted⟩ := (jobsOk_idle_iff hnone).mp h
    split
    case h_1 j rest hr =>
      rw [startJob_started]
      refine jobsOk_started (fun j' hj' => hlisted j' ?_) (hlisted j ?_) _ _ <;> rw [hr]
      · exact List.mem_cons_of_mem _ hj'
      · exact List.mem_cons_self
    case h_2 j rest hr hq =>
      rw [startJob_started]
      refine jobsOk_started (fun j' hj' => hlisted j' ?_) (hlisted j ?_) _ _ <;> rw [hr, hq]
      · change j' ∈ s.engine.responder ++ rest at hj'
        rw [hr] at hj'
        exact List.mem_cons_of_mem _ hj'
      · exact List.mem_cons_self
    case h_3 => exact h

/-- The arbiter leaves no idle engine with a job to select. -/
theorem selectJob_idle (s : State) : IdleOk s.selectJob.engine := by
  unfold State.selectJob
  split
  case h_1 j hj => intro hn; rw [hj] at hn; cases hn
  case h_2 hnone =>
    split
    case h_3 hr hq => exact fun _ => ⟨hr, hq⟩
    all_goals rw [startJob_started]; exact nofun

theorem queueResponder_engineOk {s : State} {j : Job} (hj : j.Unstarted) :
    (JobsOk s.engine s.pins.lbgnt → JobsOk (s.queueResponder j).engine s.pins.lbgnt) ∧
    IdleOk (s.queueResponder j).engine := by
  refine ⟨fun h => selectJob_jobs rfl ?_, selectJob_idle _⟩
  obtain ⟨hlbreq, htimer, hjob, hlisted⟩ := h
  refine ⟨hlbreq, htimer, hjob, ?_⟩
  simp only [State.setEngine_engine, List.forall_mem_append, List.forall_mem_singleton] at hlisted ⊢
  exact ⟨⟨hlisted.1, hj⟩, hlisted.2⟩

theorem queueRequester_engineOk {s : State} {j : Job} (hj : j.Unstarted) :
    (JobsOk s.engine s.pins.lbgnt → JobsOk (s.queueRequester j).engine s.pins.lbgnt) ∧
    IdleOk (s.queueRequester j).engine := by
  refine ⟨fun h => selectJob_jobs rfl ?_, selectJob_idle _⟩
  obtain ⟨hlbreq, htimer, hjob, hlisted⟩ := h
  refine ⟨hlbreq, htimer, hjob, ?_⟩
  simp only [State.setEngine_engine, List.forall_mem_append, List.forall_mem_singleton] at hlisted ⊢
  exact ⟨hlisted.1, hlisted.2, hj⟩

end Sys2Proof.Machine
end

section
/-! What an event keeps of local memory, of the engine's jobs and of the Pool: the engine's shared operations, the
releases and gifts of buffers, and the requester side's and the responder side's operations. -/

namespace Sys2Proof.Machine

/-- Local memory stays canonical, the engine's jobs in step with the grant, an idle engine without a job, and the
buffers with their owners. -/
structure LocalKept (s t : State) : Prop where
  memory : Memory.wf s.mem = true → Memory.wf t.mem = true
  jobs : JobsOk s.engine s.pins.lbgnt → JobsOk t.engine t.pins.lbgnt
  idle : IdleOk s.engine → IdleOk t.engine
  pool : PoolInv s → PoolInv t

/-! ### A release, on the fields that the Pool rests on (R89, R93, R148) -/

/-- A release frees this owner, an entry. -/
def freesOwner (f : Fin 16 → Release) : BufferOwner → Bool
  | .entry i => f i == .free
  | .operation _ => false

theorem afterRelease_entryBuffer (e : Entry) (r : Release) :
    (e.afterRelease r).buffer = if r = .free then none else e.buffer := by
  cases r <;> rfl

theorem afterRelease_free {e : Entry} {r : Release} (h : (e.afterRelease r).state = .free) :
    e.state = .free ∨ r = .free := by
  cases r with
  | keep => exact .inl h
  | free => exact .inr rfl
  | releasing => cases h

theorem afterRelease_owner (f : Fin 16 → Release) (x : Buffer) :
    (x.afterRelease f).owner = x.owner.filter fun o => !freesOwner f o := by
  obtain ⟨owner, data⟩ := x
  cases owner with
  | none => rfl
  | some o =>
    cases o with
    | operation k => rfl
    | entry i => by_cases hf : f i = .free <;> simp [Buffer.afterRelease, freesOwner, Option.filter, hf]

/-! ### What is kept, operation by operation -/

namespace LocalKept

theorem refl (s : State) : LocalKept s s := ⟨id, id, id, id⟩

theorem trans {s t u : State} (h : LocalKept s t) (g : LocalKept t u) : LocalKept s u :=
  ⟨g.memory ∘ h.memory, g.jobs ∘ h.jobs, g.idle ∘ h.idle, g.pool ∘ h.pool⟩

section
variable {s t : State}

/-- Memory and the grant stay, the requester list at most shrinks, and the Pool's predicate is kept. -/
theorem of_shrunk (hmem : t.mem = s.mem) (hgrant : t.pins.lbgnt = s.pins.lbgnt) (he : s.engine.Shrunk t.engine)
    (hpool : PoolInv s → PoolInv t) : LocalKept s t :=
  ⟨fun h => hmem ▸ h, fun h => hgrant ▸ he.jobs h, he.idle, hpool⟩

/-- A step beside local memory, the grant, the engine, the entries, the slots and the buffers. -/
theorem of_beside (hmem : t.mem = s.mem) (hgrant : t.pins.lbgnt = s.pins.lbgnt) (he : t.engine = s.engine)
    (hentries : t.entries = s.entries) (hslots : t.slots = s.slots) (hbuffers : t.buffers = s.buffers) :
    LocalKept s t :=
  of_shrunk hmem hgrant (he ▸ .refl _) fun h =>
    h.stays (fun o => by cases o <;> simp only [State.namedBuffer, hentries, hslots]) (fun b => by rw [hbuffers])
      fun i hi => hentries ▸ hi

/-- A responder operation that leaves the engine as it was. -/
theorem of_responder (h : ResponderFrame s t) (he : t.engine = s.engine) (hpool : PoolInv s → PoolInv t) :
    LocalKept s t :=
  of_shrunk h.mem (by rw [h.pins]) (he ▸ .refl _) hpool

/-- A requester operation, under which the requester list at most shrinks. -/
theorem of_requester (h : RequesterFrame s t) (hq : t.engine.requester ⊆ s.engine.requester)
    (hpool : PoolInv s → PoolInv t) : LocalKept s t :=
  of_shrunk h.mem (by rw [h.pins]) ⟨h.responder, hq, h.job, h.timer, h.lbreq⟩ hpool

end

/-! ### The engine's shared operations -/

theorem selectJob (s : State) : LocalKept s s.selectJob := by
  have hjobs := selectJob_jobs (s := s) rfl
  have hidle := selectJob_idle s
  obtain ⟨e, he⟩ := selectJob_eq s
  rw [he] at hjobs hidle ⊢
  exact ⟨id, hjobs, fun _ => hidle, id⟩

theorem queueResponder (s : State) {j : Job} (hj : j.Unstarted) : LocalKept s (s.queueResponder j) := by
  obtain ⟨hjobs, hidle⟩ := queueResponder_engineOk (s := s) hj
  obtain ⟨e, he⟩ := queueResponder_eq s j
  rw [he] at hjobs hidle ⊢
  exact ⟨id, hjobs, fun _ => hidle, id⟩

theorem queueRequester (s : State) {j : Job} (hj : j.Unstarted) : LocalKept s (s.queueRequester j) := by
  obtain ⟨hjobs, hidle⟩ := queueRequester_engineOk (s := s) hj
  obtain ⟨e, he⟩ := queueRequester_eq s j
  rw [he] at hjobs hidle ⊢
  exact ⟨id, hjobs, fun _ => hidle, id⟩

/-! ### Records that keep their buffers -/

theorem post (s : State) (n : Notice) : LocalKept s (s.post n) := of_beside rfl rfl rfl rfl rfl rfl

theorem setChannel (s : State) (c : Fin 8) (r : Channel) : LocalKept s (s.setChannel c r) :=
  of_beside rfl rfl rfl rfl rfl rfl

theorem setPointer (s : State) (c : Fin 8) : LocalKept s { s with pointer := c } := of_beside rfl rfl rfl rfl rfl rfl

theorem setRequestQueue (s : State) (queue : List (Fin 16)) : LocalKept s { s with requestQueue := queue } :=
  of_beside rfl rfl rfl rfl rfl rfl

theorem setSendOrder (s : State) (order : List (Fin 8)) : LocalKept s { s with sendOrder := order } :=
  of_beside rfl rfl rfl rfl rfl rfl

theorem setLine (s : State) (l : Line) : LocalKept s (s.setLine l) := of_beside rfl rfl rfl rfl rfl rfl

theorem setWindow (s : State) (i : Fin 32) (w : WindowEntry) : LocalKept s (s.setWindow i w) :=
  of_beside rfl rfl rfl rfl rfl rfl

theorem setReplay (s : State) (n : Fin 512) (r : ReplayRecord) : LocalKept s (s.setReplay n r) :=
  of_beside rfl rfl rfl rfl rfl rfl

/-- An entry goes on with its buffer in another state, and none becomes FREE. -/
theorem setEntry (s : State) (i : Fin 16) {e : Entry} (hbuffer : e.buffer = s.entries[i].buffer)
    (hfree : e.state = .free → s.entries[i].state = .free) : LocalKept s (s.setEntry i e) := by
  refine of_requester (.setEntry s i e) (List.Subset.refl _) fun h => h.stays (fun o => ?_) (fun _ => rfl) fun k hk => ?_
  · cases o with
    | operation k => rfl
    | entry k =>
      by_cases hik : i = k
      · subst hik; simp only [State.namedBuffer, setEntry_get_self, hbuffer]
      · simp only [State.namedBuffer, setEntry_get_other _ _ _ _ hik]
  · by_cases hik : i = k
    · subst hik; rw [setEntry_get_self] at hk; exact hfree hk
    · rwa [setEntry_get_other _ _ _ _ hik] at hk

/-- An operation goes on with its buffer, or one without a buffer takes a free slot. -/
theorem setSlot (s : State) (k : Fin 8) {o : Option Operation}
    (hbuffer : o.bind Operation.buffer = s.namedBuffer (.operation k)) : LocalKept s (s.setSlot k o) := by
  refine of_responder (.setSlot s k o) rfl fun h => h.stays (fun o' => ?_) (fun _ => rfl) fun _ hi => hi
  cases o' with
  | entry i => rfl
  | operation k' =>
    by_cases hkk : k = k'
    · subst hkk; rw [← hbuffer, State.namedBuffer, setSlot_get_self]
    · simp only [State.namedBuffer, setSlot_get_other _ _ _ _ hkk]

/-! ### Buffers that change hands (R148) -/

theorem fillBuffer (s : State) (given : Option (Fin 24)) (payload : List Byte) :
    LocalKept s (s.fillBuffer given payload) := by
  have howner := fillBuffer_owner s given payload
  obtain ⟨bs, hb⟩ := fillBuffer_eq s given payload
  rw [hb] at howner ⊢
  exact of_shrunk rfl rfl (.refl _) fun h => h.stays (fun o => by cases o <;> rfl) howner fun _ hi => hi

/-- An entry is freed, and its buffer returns. -/
theorem freeEntry (s : State) (i : Fin 16) : LocalKept s (s.freeEntry i) := by
  have hframe := RequesterFrame.freeEntry s i
  have hentries : (s.freeEntry i).entries = s.entries.set i (Entry.freeWith s.entries[i].epoch) :=
    entryFreed_entries s i
  have hentry : ∀ k : Fin 16, (s.freeEntry i).entries[k] =
      if i = k then Entry.freeWith s.entries[i].epoch else s.entries[k] := fun k => by rw [hentries, getElem_set_fin]
  refine of_requester hframe ?_ fun h => h.returned (o := .entry i) (fun o' => ?_)
    (fun b => returnBuffer_owner s s.entries[i].buffer b) fun k hk => ?_
  · rw [entryFreed_eq, entryFreed_engine]
    exact List.Subset.refl _
  · cases o' with
    | operation k => simp only [State.namedBuffer, hframe.slots, reduceCtorEq, if_false]
    | entry k =>
      simp only [State.namedBuffer, hentry, BufferOwner.entry.injEq, eq_comm (a := k)]
      split <;> rfl
  · by_cases hik : i = k
    · exact .inr (by rw [hik])
    · rw [hentry, if_neg hik] at hk
      exact .inl hk

/-- Entries are freed with their buffers, or made RELEASING and keep them (R89, R93, R117). -/
theorem releaseEntries (s : State) (f : Fin 16 → Release) : LocalKept s (s.releaseEntries f) := by
  refine of_requester (.releaseEntries s f) (List.filter_subset_self _) fun h => h.released (gone := freesOwner f)
    (fun o => ?_) (fun b => by rw [releaseEntries_buffer, afterRelease_owner]) fun i hi => ?_
  · cases o with
    | operation k => rfl
    | entry i => simp only [State.namedBuffer, releaseEntries_entry, afterRelease_entryBuffer, freesOwner, beq_iff_eq]
  · rw [releaseEntries_entry] at hi
    exact (afterRelease_free hi).imp_right beq_iff_eq.mpr

/-! ### The requester side (R83 to R91, R101 to R117) -/

theorem endOfPass (s : State) (c : Fin 8) : LocalKept s (s.endOfPass c) := by
  unfold State.endOfPass
  split <;> exact (setChannel _ _ _).trans (post _ _)

theorem lowerLive (s : State) (c : Fin 8) : LocalKept s (s.lowerLive c) := setChannel _ _ _

theorem settleHalting (s : State) (c : Fin 8) : LocalKept s (s.settleHalting c) := by
  unfold State.settleHalting
  split
  · exact (setChannel _ _ _).trans (post _ _)
  · exact refl s

theorem reportComplete (s : State) (c : Fin 8) : LocalKept s (s.reportComplete c) := by
  unfold State.reportComplete
  split
  · split
    · split
      · exact setChannel _ _ _
      · exact (lowerLive s c).trans (endOfPass _ _)
    · exact lowerLive s c
  · exact (lowerLive s c).trans (endOfPass _ _)
  · exact (lowerLive s c).trans (settleHalting _ _)
  all_goals exact lowerLive s c

theorem reportFailure (s : State) (c : Fin 8) (code : FaultCode) (offset : Nat) (atSignal : Bool) :
    LocalKept s (s.reportFailure c code offset atSignal) := by
  have hhalt : LocalKept s (s.haltChannel c code offset atSignal) := (releaseEntries s _).trans (setChannel _ _ _)
  unfold State.reportFailure
  split
  · exact hhalt.trans (settleHalting _ _)
  · exact hhalt.trans (settleHalting _ _)
  · exact hhalt.trans (settleHalting _ _)
  · exact (lowerLive s c).trans (settleHalting _ _)
  all_goals exact lowerLive s c

theorem completeEntry (s : State) (i : Fin 16) : LocalKept s (s.completeEntry i) := by
  unfold State.completeEntry
  split
  · exact freeEntry s i
  · exact (freeEntry s i).trans (reportComplete _ _)

theorem failEntry (s : State) (i : Fin 16) (code : FaultCode) : LocalKept s (s.failEntry i code) := by
  unfold State.failEntry
  split
  · exact freeEntry s i
  · exact (freeEntry s i).trans (reportFailure _ _ _ _ _)

theorem dropEntry (s : State) (i : Fin 16) : LocalKept s (s.dropEntry i) := by
  unfold State.dropEntry
  split
  · exact freeEntry s i
  · exact ((freeEntry s i).trans (lowerLive _ _)).trans (settleHalting _ _)

/-- An entry that keeps its buffer joins the Request Queue or leaves it. -/
theorem requeued (s : State) (i : Fin 16) {e : Entry} (queue : List (Fin 16)) (hbuffer : e.buffer = s.entries[i].buffer)
    (hfree : e.state = .free → s.entries[i].state = .free) :
    LocalKept s { s.setEntry i e with requestQueue := queue } :=
  (setEntry s i hbuffer hfree).trans (setRequestQueue _ _)

theorem queueTail (s : State) (i : Fin 16) {e : Entry} (hbuffer : e.buffer = s.entries[i].buffer) :
    LocalKept s (s.queueTail i e) :=
  requeued s i _ hbuffer nofun

theorem retryEntry (s : State) (i : Fin 16) : LocalKept s (s.retryEntry i) := by
  unfold State.retryEntry
  split
  · split
    · exact dropEntry s i
    · exact queueTail s i rfl
  · exact failEntry s i _

theorem holdEntry (s : State) (i : Fin 16) : LocalKept s (s.holdEntry i) := by
  unfold State.holdEntry
  split
  · split
    · exact dropEntry s i
    · exact setEntry s i rfl nofun
  · exact failEntry s i _

theorem sendEntry (s : State) (i : Fin 16) : LocalKept s (s.sendEntry i) := by
  unfold State.sendEntry
  split
  · exact requeued s i _ rfl nofun
  · exact refl s

theorem entrySent (s : State) (i : Fin 16) (taken : Bool) : LocalKept s (s.entrySent i taken) := by
  unfold State.entrySent
  split
  · exact freeEntry s i
  · split
    · exact setEntry s i rfl nofun
    · exact retryEntry s i

theorem entryClashed (s : State) (i : Fin 16) : LocalKept s (s.entryClashed i) := by
  unfold State.entryClashed
  split
  · exact freeEntry s i
  · split
    · exact dropEntry s i
    · exact requeued s i _ rfl nofun

theorem entryRoundLost (s : State) (i : Fin 16) : LocalKept s (s.entryRoundLost i) := by
  unfold State.entryRoundLost
  split
  · exact freeEntry s i
  · exact refl s

theorem entryJobEnd (s : State) (i : Fin 16) (faulted : Bool) : LocalKept s (s.entryJobEnd i faulted) := by
  unfold State.entryJobEnd
  split
  · exact freeEntry s i
  · split
    · exact failEntry s i _
    · split
      · exact dropEntry s i
      · exact queueTail s i rfl
  · split
    · exact failEntry s i _
    · exact completeEntry s i
  all_goals exact refl s

theorem settleDone (s : State) (i : Fin 16) (o : DoneOutcome) : LocalKept s (s.settleDone i o) := by
  unfold State.settleDone
  split
  · exact completeEntry s i
  · exact failEntry s i _
  · exact failEntry s i _
  · exact failEntry s i _
  · exact holdEntry s i
  · exact holdEntry s i
  · exact failEntry s i _

/-- A taken answer: the entry settles, or its landing write is queued with the payload in its buffer (R110 to R115). -/
theorem takeAnswer (s : State) (a : Answer) : LocalKept s (s.takeAnswer a) := by
  have hunqueue : ∀ i, LocalKept s (s.unqueue i) := fun i => requeued s i _ rfl id
  unfold State.takeAnswer
  split
  case isFalse => exact refl s
  case isTrue =>
    cases a with
    | done tag o => exact (hunqueue _).trans (settleDone _ _ _)
    | data tag payload =>
      refine (hunqueue (tagEntry tag)).trans ?_
      show LocalKept _ ((s.unqueue (tagEntry tag)).landData (tagEntry tag) payload)
      generalize s.unqueue (tagEntry tag) = u
      unfold State.landData
      obtain ⟨bs, hb⟩ := fillBuffer_eq u u.entries[tagEntry tag].buffer payload
      have hfill := fillBuffer u u.entries[tagEntry tag].buffer payload
      rw [hb] at hfill ⊢
      have hlanding := setEntry { u with buffers := bs } (tagEntry tag)
        (e := { u.entries[tagEntry tag] with state := .landing }) rfl nofun
      exact (hfill.trans hlanding).trans (queueRequester _ ⟨rfl, rfl, rfl⟩)

/-! ### Formation (R76 to R78, R84) -/

theorem launch (s : State) (i : Fin 16) (e : Entry) : LocalKept s (s.launch i e) := by
  unfold State.launch
  split
  · exact queueRequester s (unstarted_listed ..)
  all_goals exact of_beside rfl rfl rfl rfl rfl rfl

/-- A FREE entry is given a free buffer with its data request (R77, R78, R148). -/
theorem givenEntry {s : State} {i : Fin 16} {e : Entry} (hfree : s.entries[i].state = .free) (he : e.state ≠ .free)
    (hbuffer : e.buffer = freeBuffer s) :
    LocalKept s ((s.giveBuffer (freeBuffer s) (.entry i)).setEntry i e) := by
  have howner := giveBuffer_owner s (freeBuffer s) (.entry i)
  obtain ⟨bs, hb⟩ := giveBuffer_eq s (freeBuffer s) (.entry i)
  rw [hb] at howner ⊢
  have hentry : ∀ k : Fin 16, (State.setEntry { s with buffers := bs } i e).entries[k] =
      if i = k then e else s.entries[k] := fun k => getElem_set_fin _ i k e
  refine of_shrunk rfl rfl (.refl _) fun h => h.given (o := .entry i) (((poolInv_iff s).mp h).2 i hfree)
    (fun b => freeBuffer_unheld) (fun o => ?_) howner fun k hk => ?_
  · cases o with
    | operation k => simp only [reduceCtorEq, if_false]; rfl
    | entry k =>
      simp only [State.namedBuffer, hentry, BufferOwner.entry.injEq, eq_comm (a := k)]
      split <;> simp only [hbuffer]
  · rw [hentry] at hk
    by_cases hik : i = k
    · rw [if_pos hik] at hk; exact absurd hk he
    · rw [if_neg hik] at hk
      exact ⟨hk, fun e => hik (BufferOwner.entry.inj e).symm⟩

theorem formData {s : State} {i : Fin 16} (hfree : s.entries[i].state = .free) (c : Fin 8) :
    LocalKept s (s.formData c i) := by
  have hstate : (dataEntry s.entries[i] c s.channels[c] (freeBuffer s)).state ≠ .free := by
    unfold dataEntry
    cases s.channels[c].direction <;> nofun
  exact (((givenEntry hfree hstate rfl).trans (setPointer _ c)).trans (setChannel _ _ _)).trans
    (launch _ _ _)

/-- A completion signal's entry holds no buffer (R84). -/
theorem formSignal {s : State} {i : Fin 16} (hfree : s.entries[i].state = .free) (c : Fin 8) :
    LocalKept s (s.formSignal c i) := by
  have hset : LocalKept s (s.setEntry i (signalEntry s.entries[i] c s.channels[c])) :=
    ⟨id, id, id, fun h => (setEntry s i (e := signalEntry s.entries[i] c s.channels[c])
      (((poolInv_iff s).mp h).2 i hfree).symm nofun).pool h⟩
  exact ((hset.trans (setPointer _ c)).trans (setChannel _ _ _)).trans (launch _ _ _)

/-! ### The responder side (R17, R30 to R46) -/

theorem touchWindow (s : State) (i : Fin 32) (sender : Station) (offset : Nat) :
    LocalKept s (s.touchWindow i sender offset) := by
  unfold State.touchWindow
  split
  · exact refl s
  · exact (setWindow _ _ _).trans (post _ _)

/-- A DONE built in a free slot holds no buffer (R32, R34, R37). -/
theorem answerAtOnce {s : State} {k : Fin 8} (hk : s.slots[k] = none) (r : Request) (o : DoneOutcome) :
    LocalKept s (s.answerAtOnce k r o) := by
  have hnone : s.namedBuffer (.operation k) = none := by rw [State.namedBuffer, hk]; rfl
  exact (setSlot s k (o := some ((r.operation none).answered (.done o))) hnone.symm).trans (setSendOrder _ _)

theorem serveSignal {s : State} {k : Fin 8} (hk : s.slots[k] = none) (r : Request) :
    LocalKept s (s.serveSignal k r) := by
  unfold State.serveSignal
  split
  · exact answerAtOnce hk r _
  · split
    · exact answerAtOnce hk r _
    · refine ((post s (.remoteSignal r.sender r.value)).trans (setReplay _ (replayIndex r.sender r.tag.entry)
        ⟨.settled, r.incarnation, r.tag.epoch, some .ok⟩)).trans (answerAtOnce ?_ r _)
      exact hk

theorem admittedJob_unstarted (k : Fin 8) (r : Request) (w : WindowEntry) (b : Option (Fin 24)) :
    (admittedJob k r w b).Unstarted := by
  unfold admittedJob
  split <;> exact unstarted_listed ..

theorem admittedOperation_buffer (r : Request) (w : WindowEntry) (b : Option (Fin 24)) :
    (admittedOperation r w b).buffer = b := by
  unfold admittedOperation
  split <;> rfl

/-- An admission gives its operation a free buffer and queues its job (R30, R35, R36). -/
theorem executeRequest {s : State} {k : Fin 8} (hk : s.slots[k] = none) (r : Request) :
    LocalKept s (s.executeRequest k r) := by
  have hframe := ResponderFrame.executeRequest s k r
  have hslots := executeRequest_slots s k r
  have hengine := executeRequest_engine s k r
  have hbuffers : (s.executeRequest k r).buffers = (s.giveBuffer (freeBuffer s) (.operation k)).buffers := by
    rw [executeRequest_eq]
  obtain ⟨hjobs, hidle⟩ :=
    queueResponder_engineOk (s := s) (admittedJob_unstarted k r s.windows[r.window] (freeBuffer s))
  refine ⟨fun h => by rw [hframe.mem]; exact h, fun h => by rw [hengine, hframe.pins]; exact hjobs h,
    fun _ => by rw [hengine]; exact hidle, fun h => h.given (o := .operation k) (by rw [State.namedBuffer, hk]; rfl)
      (fun b => freeBuffer_unheld) (fun o => ?_) (fun b => by rw [hbuffers, giveBuffer_owner]) fun i hi => ?_⟩
  · cases o with
    | entry i => simp only [State.namedBuffer, hframe.entries, reduceCtorEq, if_false]
    | operation k' =>
      simp only [State.namedBuffer, hslots, getElem_set_fin, BufferOwner.operation.injEq, eq_comm (a := k')]
      split
      · exact admittedOperation_buffer ..
      · rfl
  · exact ⟨hframe.entries ▸ hi, nofun⟩

theorem serveWindow {s : State} {k : Fin 8} (hk : s.slots[k] = none) (r : Request) :
    LocalKept s (s.serveWindow k r) := by
  unfold State.serveWindow
  split
  · exact executeRequest hk r
  · exact (touchWindow s _ _ _).trans (answerAtOnce (by rw [touchWindow_slots]; exact hk) r _)
  · exact answerAtOnce hk r _

theorem takeRequest (s : State) (r : Request) : LocalKept s (s.takeRequest r).1 := by
  have hslots := (placePayload_quiet s r).slots
  have hplace : LocalKept s (s.placePayload r) := by
    unfold State.placePayload
    split
    · exact fillBuffer _ _ _
    · exact refl s
  unfold State.takeRequest
  split
  case h_1 => exact refl s
  case h_2 => exact refl s
  case h_3 =>
    split
    · exact refl s
    · rename_i k hfree
      exact hplace.trans (answerAtOnce (by rw [hslots]; exact freeSlot_none hfree) r _)
  case h_4 =>
    split
    · exact refl s
    · rename_i k hfree
      have hk : (s.placePayload r).slots[k] = none := by rw [hslots]; exact freeSlot_none hfree
      refine hplace.trans ?_
      show LocalKept _ ((s.placePayload r).serveFresh k r)
      unfold State.serveFresh
      split
      · exact serveSignal hk r
      · exact serveWindow hk r

/-- An operation lets its buffer go, in a slot that it leaves or keeps (R38, R39, R46). -/
theorem slotEmptied (s : State) (k : Fin 8) {o : Option Operation} (hnone : o.bind Operation.buffer = none) :
    LocalKept s ((s.returnBuffer (s.namedBuffer (.operation k))).setSlot k o) := by
  have hframe := (ResponderFrame.returnBuffer s (s.namedBuffer (.operation k))).trans (.setSlot _ k o)
  have hslots : (s.returnBuffer (s.namedBuffer (.operation k))).slots = s.slots := (RequesterFrame.returnBuffer s _).slots
  refine of_responder hframe ?_ fun h => h.returned (o := .operation k) (fun o' => ?_)
    (fun b => returnBuffer_owner s (s.namedBuffer (.operation k)) b) fun i hi => .inl (hframe.entries ▸ hi)
  · cases s.namedBuffer (.operation k) <;> rfl
  · cases o' with
    | entry i => exact congrArg (fun es : Vector Entry 16 => es[i].buffer) hframe.entries
    | operation k' =>
      rw [State.namedBuffer, State.setSlot_slots, getElem_set_fin, hslots]
      by_cases hk : k = k'
      · rw [if_pos hk, if_pos (by rw [hk]), hnone]
      · rw [if_neg hk, if_neg fun e => hk (BufferOwner.operation.inj e).symm]
        rfl

theorem endOperation {s : State} {k : Fin 8} {op : Operation} (hop : s.slots[k] = some op) :
    LocalKept s (s.endOperation k op) := by
  have hnamed : op.buffer = s.namedBuffer (.operation k) := by rw [State.namedBuffer, hop]; rfl
  rw [State.endOperation, hnamed]
  exact (slotEmptied s k rfl).trans (setSendOrder _ _)

theorem responseSent (s : State) (k : Fin 8) (taken : Bool) : LocalKept s (s.responseSent k taken) := by
  unfold State.responseSent
  split
  · exact refl s
  · rename_i op hop
    have hagain : LocalKept s (s.setSlot k (some { op with sendCount := op.sendCount + 1 })) :=
      setSlot s k (by rw [State.namedBuffer, hop]; rfl)
    split
    · exact endOperation hop
    · split
      · exact hagain.trans (setSendOrder _ _)
      · exact endOperation hop

/-- A DATA keeps the operation's buffer, and a DONE returns it (R38, R39). -/
theorem answerExecuted {s : State} {k : Fin 8} {op : Operation} (hop : s.slots[k] = some op) (faulted : Bool) :
    LocalKept s (s.answerExecuted k op faulted) := by
  have hnamed : op.buffer = s.namedBuffer (.operation k) := by rw [State.namedBuffer, hop]; rfl
  unfold State.answerExecuted
  split
  · exact (setSlot s k (o := some (op.answered .data)) hnamed).trans (setSendOrder _ _)
  · rw [hnamed]
    exact (slotEmptied s k rfl).trans (setSendOrder _ _)

theorem operationJobEnd (s : State) (k : Fin 8) (faulted : Bool) : LocalKept s (s.operationJobEnd k faulted) := by
  unfold State.operationJobEnd
  split
  · exact refl s
  · rename_i op hop
    have hend : LocalKept s (s.endExecution op faulted) ∧ (s.endExecution op faulted).slots = s.slots := by
      cases hw : op.window with
      | none => rw [State.endExecution, hw]; exact ⟨refl s, rfl⟩
      | some w => rw [endExecution_eq s op w faulted hw]; exact ⟨of_beside rfl rfl rfl rfl rfl rfl, rfl⟩
    obtain ⟨hkept, hslots⟩ := hend
    have hrecord : LocalKept (s.endExecution op faulted) ((s.endExecution op faulted).settleRecord op faulted) := by
      rw [settleRecord_eq]
      exact of_beside rfl rfl rfl rfl rfl rfl
    refine (hkept.trans hrecord).trans (answerExecuted ?_ faulted)
    rw [(settleRecord_fields _ op faulted).2.1, hslots]
    exact hop

end LocalKept

end Sys2Proof.Machine
end

section
/-! Every command and every step keep local memory canonical, the engine's jobs in step and the Pool with its owners:
the port's part, the line's events, the grant and the bus cycles, and the resets. -/

namespace Sys2Proof.Machine

namespace LocalKept

/-! ### The port (R177 to R179) -/

theorem setAnswer (s : State) (code : Word) (r : Result) : LocalKept s { s with cmd := code, result := r } :=
  of_beside rfl rfl rfl rfl rfl rfl

theorem takeCommand {code : Word} {owner : State → State × Result} (h : ∀ u, LocalKept u (owner u).1) (s : State) :
    LocalKept s (takeCommand code owner s) := by
  unfold Machine.takeCommand
  split
  · exact refl s
  · split
    · exact ((setAnswer s code s.result).trans (h _)).trans (setAnswer _ _ _)
    · exact setAnswer s _ _

/-- A choice of two answers keeps what both do. -/
theorem ite_answer {p : Prop} [Decidable p] {u : State} {a b : State × Result} (ha : LocalKept u a.1)
    (hb : LocalKept u b.1) : LocalKept u (if p then a else b).1 := by
  split
  · exact ha
  · exact hb

theorem onWindow {taken : WindowState → Bool} {act : Fin 32 → WindowEntry → State → State × Result}
    (h : ∀ i w u, LocalKept u (act i w u).1) (s : State) : LocalKept s (onWindow taken act s).1 := by
  unfold Machine.onWindow
  split
  · exact ite_answer (h _ _ _) (refl s)
  · exact refl s

theorem onChannel {taken : ChannelState → Bool} {act : Fin 8 → Channel → State → State × Result}
    (h : ∀ c r u, LocalKept u (act c r u).1) (s : State) : LocalKept s (onChannel taken act s).1 := by
  unfold Machine.onChannel
  split
  · exact ite_answer (h _ _ _) (refl s)
  · exact refl s

theorem setArgs (s : State) (args : Vector Word 6) : LocalKept s { s with args := args } :=
  of_beside rfl rfl rfl rfl rfl rfl

/-- The thirteen commands that an owner takes: CH_ABORT alone touches an entry. -/
theorem ownedCommand : ∀ p ∈ ownedCommands, ∀ s, LocalKept s (Machine.takeCommand p.2.1 p.2.2 s) := by
  suffices howner : ∀ p ∈ ownedCommands, ∀ u, LocalKept u (p.2.2 u).1 from fun p hp s => takeCommand (howner p hp) s
  simp only [ownedCommands, List.forall_mem_cons, List.not_mem_nil, false_implies, implies_true, and_true]
  refine ⟨?winOpen, ?winPark, ?winUnpark, ?winClose, ?winGrants, ?winQuery, ?mboxConsume, ?chLoad, ?chStart, ?chAbort,
    ?chClear, ?chQuery, ?lineRestart⟩
  case winOpen => exact onWindow fun _ _ u => ite_answer (setWindow u _ _) (refl u)
  case winPark => exact onWindow fun _ _ u => ite_answer (setWindow u _ _) (setWindow u _ _)
  case winUnpark => exact onWindow fun _ _ u => setWindow u _ _
  case winClose => exact onWindow fun _ _ u => ite_answer (setWindow u _ _) (setWindow u _ _)
  case winGrants => exact onWindow fun _ _ u => setWindow u _ _
  case winQuery => exact onWindow fun _ _ u => setArgs u _
  case mboxConsume => exact onWindow fun _ _ u => ite_answer (setWindow u _ _) (refl u)
  case chLoad => exact onChannel fun _ _ u => ite_answer (setChannel u _ _) (refl u)
  case chStart => exact onChannel fun _ _ u => setChannel u _ _
  case chAbort => exact onChannel fun _ _ u => ((releaseEntries u _).trans (setChannel _ _ _)).trans (post _ _)
  case chClear => exact onChannel fun _ _ u => setChannel u _ _
  case chQuery => exact onChannel fun _ _ u => setArgs u _
  case lineRestart => exact fun u => ite_answer (setLine u _) (refl u)

theorem takeUnknown (code : Word) (s : State) : LocalKept s (takeUnknown code s) := by
  unfold Machine.takeUnknown
  split <;> exact of_beside rfl rfl rfl rfl rfl rfl

theorem portPop (s : State) : LocalKept s (portPop s) := by
  unfold Machine.portPop
  split <;> exact of_beside rfl rfl rfl rfl rfl rfl

theorem portEnable (value : Word) (enables : BitVec 4) (s : State) : LocalKept s (portEnable value enables s) := by
  unfold Machine.portEnable
  split
  · exact refl s
  · split <;> exact of_beside rfl rfl rfl rfl rfl rfl

theorem portArgument (position : Nat) (value : Word) (enables : BitVec 4) (s : State) :
    LocalKept s (portArgument position value enables s) := by
  unfold Machine.portArgument
  split
  · exact refl s
  · split
    · exact setArgs s _
    · exact refl s

/-! ### The job and its cycles (R153 to R157) -/

/-- A failed start posts its reason, and a passed one takes the line to JOINING (R188, R189). -/
theorem decideStart (s : State) (faulted : Bool) : LocalKept s (s.decideStart faulted) := by
  unfold State.decideStart
  split
  · exact of_beside rfl rfl rfl rfl rfl rfl
  · split <;> exact of_beside rfl rfl rfl rfl rfl rfl

theorem reportJobEnd (s : State) (o : JobOwner) (faulted : Bool) : LocalKept s (s.reportJobEnd o faulted) := by
  cases o with
  | operation k => exact operationJobEnd s k faulted
  | entry i => exact entryJobEnd s i faulted
  | loader => exact decideStart s faulted

/-- The engine that has let its job go is in step with what is listed, and the arbiter leaves none listed behind an idle
engine (R152, R157). -/
theorem endJob (s : State) (o : JobOwner) (faulted : Bool) : LocalKept s (s.endJob o faulted) := by
  have hreport := reportJobEnd s.releaseEngine o faulted
  have hselect := selectJob (s.releaseEngine.reportJobEnd o faulted)
  refine ⟨fun h => hselect.memory (hreport.memory h), fun h => hselect.jobs (hreport.jobs ?_), fun _ => selectJob_idle _,
    fun h => hselect.pool (hreport.pool h)⟩
  obtain ⟨-, -, -, hlisted⟩ := h
  exact (jobsOk_idle_iff rfl).mpr ⟨rfl, rfl, hlisted⟩

section
variable {s : State} {j : Job} (hj : s.engine.job = some j)
include hj

/-- The grant comes or goes, and the started job goes on in a phase that agrees with it. -/
theorem granted {j' : Job} {timer : Option Nat} {level : Bool}
    (h : JobsOk s.engine s.pins.lbgnt → j'.phase ≠ .listed ∧ (timer.isSome = true ↔ j'.phase = .requesting) ∧
      (j'.phase = .requesting → level = false ∧ j'.lastCycle = false) ∧
      (j'.phase = .moving → (j'.lastCycle = true ↔ level = false))) :
    LocalKept s { s with
      pins := { s.pins with lbgnt := level }, engine := { s.engine with job := some j', timer := timer } } := by
  refine ⟨id, fun hs => ?_, fun _ => nofun, id⟩
  obtain ⟨hphase, htimer, hrequesting, hmoving⟩ := h hs
  exact jobsOk_phase hs hj hphase htimer hrequesting hmoving

theorem grantAsserted : LocalKept s { s with
    pins := { s.pins with lbgnt := true }
    engine := { s.engine with job := some { j with phase := .moving, lastCycle := false }, timer := none } } :=
  granted hj fun _ => ⟨nofun, by simp, nofun, fun _ => by simp⟩

theorem grantDeasserted : LocalKept s { s with
    pins := { s.pins with lbgnt := false }
    engine := { s.engine with job := some { j with lastCycle := decide (j.phase = .moving) } } } := by
  refine granted hj (timer := s.engine.timer) fun hs => ?_
  obtain ⟨-, htimer, hjob, -⟩ := hs
  refine ⟨(hjob j hj).1, ?_, fun hr => ⟨rfl, ?_⟩, fun hm => ?_⟩
  · simpa [hj] using htimer
  · have hr : j.phase = .requesting := hr
    simp [hr]
  · have hm : j.phase = .moving := hm
    simp [hm]

/-- A cycle that does not end its job: MOVING on under the grant, REQUESTING again without it (R155). -/
theorem continueJob (hphase : j.phase = .moving) : LocalKept s (s.continueJob j) := by
  unfold State.continueJob
  split
  case isTrue hlast =>
    refine granted hj (level := s.pins.lbgnt) fun hs => ⟨nofun, by simp, fun _ => ⟨?_, rfl⟩, nofun⟩
    obtain ⟨-, -, hjob, -⟩ := hs
    exact ((hjob j hj).2.2 hphase).mp hlast
  case isFalse hlast =>
    refine granted hj (timer := s.engine.timer) (level := s.pins.lbgnt) fun hs => ?_
    obtain ⟨-, htimer, hjob, -⟩ := hs
    obtain ⟨hne, hrequesting, hmoving⟩ := hjob j hj
    exact ⟨hne, by simpa [hj, Job.afterCycle] using htimer, hrequesting, hmoving⟩

end

theorem moveCycle_owner (s : State) (j : Job) (b : Fin 24) : (s.moveCycle j).buffers[b].owner = s.buffers[b].owner := by
  unfold State.moveCycle
  split
  · rfl
  · split
    · rw [State.setBuffer_buffers, getElem_set_fin]
      split
      · rename_i h; rw [← h]
      · rfl
    · rfl

/-- A cycle inside the address space moves bytes and no owner (R154). -/
theorem moveCycle (s : State) {j : Job} (ha : ∀ a ∈ j.cycleAddresses, a < Config.memorySize) :
    LocalKept s (s.moveCycle j) := by
  have howner := moveCycle_owner s j
  have hmem := fun h => moveCycle_wf (s := s) h ha
  obtain ⟨m, bs, l, h⟩ := moveCycle_eq s j
  rw [h] at howner hmem ⊢
  exact ⟨hmem, id, id, fun hs => hs.stays (fun o => by cases o <;> rfl) howner fun _ hi => hi⟩

theorem completeCycle {s : State} {j : Job} (hj : s.engine.job = some j) (hphase : j.phase = .moving)
    (ha : ∀ a ∈ j.cycleAddresses, a < Config.memorySize) : LocalKept s (s.completeCycle j) := by
  unfold State.completeCycle
  split
  · exact (moveCycle s ha).trans (endJob _ _ _)
  · exact (moveCycle s ha).trans (continueJob (by rw [(moveCycle_quiet s j).2]; exact hj) hphase)

theorem execLbgntAsserted {s t : State} (h : execLbgntAsserted s = .next t) : LocalKept s t := by
  unfold Machine.execLbgntAsserted at h
  split at h <;> cases h
  · rename_i hnone
    exact ⟨id, fun hs => (jobsOk_idle_iff hnone).mpr ((jobsOk_idle_iff hnone).mp hs), id, id⟩
  · rename_i j hj
    exact grantAsserted hj

theorem execLbgntDeasserted {s t : State} (h : execLbgntDeasserted s = .next t) : LocalKept s t := by
  unfold Machine.execLbgntDeasserted at h
  split at h <;> cases h
  · rename_i hnone
    exact ⟨id, fun hs => (jobsOk_idle_iff hnone).mpr ((jobsOk_idle_iff hnone).mp hs), id, id⟩
  · rename_i j hj
    exact grantDeasserted hj

theorem execLberr {s t : State} {inCycle : Bool} (h : execLberr s inCycle = .next t) : LocalKept s t := by
  unfold Machine.execLberr at h
  split at h
  · cases h; exact refl s
  · split at h <;> cases h
    · exact endJob s _ true
    · exact refl s

theorem execGrantWaitExpiry {s t : State} (h : execGrantWaitExpiry s = .next t) : LocalKept s t := by
  unfold Machine.execGrantWaitExpiry at h
  split at h
  · cases h; exact refl s
  · split at h <;> cases h
    · exact endJob s _ true
    · exact refl s

theorem execBusCycleComplete {s t : State} {stores : List Host.Cell} (h : execBusCycleComplete stores s = .next t) :
    LocalKept s t := by
  unfold Machine.execBusCycleComplete at h
  split at h
  · cases h; exact refl s
  · rename_i j hj
    split at h
    · rename_i hphase
      split at h <;> cases h
      rename_i hinside
      simp only [Bool.and_eq_true, List.all_eq_true, decide_eq_true_eq] at hinside
      have hstores : LocalKept s { s with mem := Memory.writeCells s.mem stores } :=
        ⟨fun hw => Memory.writeCells_wf hw hinside.1, id, id, id⟩
      exact hstores.trans (completeCycle hj hphase hinside.2)
    · cases h; exact refl s

/-! ### The line (R124 to R143) -/

theorem execStartOpportunity {s t : State} (h : execStartOpportunity s = .next t) : LocalKept s t := by
  unfold Machine.execStartOpportunity at h
  split at h
  · split at h <;> cases h <;> exact setLine s _
  · cases h; exact refl s

theorem execRoundLost {s t : State} (h : execRoundLost s = .next t) : LocalKept s t := by
  unfold Machine.execRoundLost at h
  split at h
  · split at h <;> cases h
    · exact setLine s _
    · exact (setLine s _).trans (entryRoundLost _ _)
  · cases h; exact refl s

theorem execRoundWon {s t : State} (h : execRoundWon s = .next t) : LocalKept s t := by
  unfold Machine.execRoundWon at h
  split at h
  · split at h <;> cases h
    · exact setLine s _
    · exact (setLine s _).trans (sendEntry _ _)
  · cases h; exact refl s

theorem execSentFrameEnd {s t : State} {slot : LineCond} (h : execSentFrameEnd slot s = .next t) : LocalKept s t := by
  have hgive : ∀ l o taken, LocalKept s ((s.setLine l).giveResult o taken) := fun l o taken => by
    refine (setLine s l).trans ?_
    unfold State.giveResult
    split
    · exact responseSent _ _ _
    · exact entrySent _ _ _
  unfold Machine.execSentFrameEnd at h
  split at h <;> cases h
  · exact hgive _ _ _
  · exact refl s

theorem execClash {s t : State} (h : execClash s = .next t) : LocalKept s t := by
  have hgive : ∀ o, LocalKept s ((s.setLine s.line.afterClash).giveClash o) := fun o => by
    refine (setLine s s.line.afterClash).trans ?_
    unfold State.giveClash
    split
    · exact refl _
    · exact entryClashed _ _
  unfold Machine.execClash at h
  split at h
  · split at h <;> cases h
    · exact (hgive _).trans (post _ _)
    · exact hgive _
  · cases h; exact refl s

theorem execFrameCrcReceived {s t : State} {conds : List LineCond} (h : execFrameCrcReceived conds s = .next t) :
    LocalKept s t := by
  unfold Machine.execFrameCrcReceived at h
  split at h
  · split at h <;> cases h
    · exact refl s
    · rename_i f _
      refine LocalKept.trans ?_ (setLine (s.takeFrame f).1 _)
      unfold State.takeFrame
      split
      · split
        · exact takeRequest s _
        · exact takeAnswer s _
        · exact refl s
      · exact refl s
  · cases h; exact refl s

theorem execFrameEnd {s t : State} {conds : List LineCond} (h : execFrameEnd s conds = .next t) : LocalKept s t := by
  unfold Machine.execFrameEnd at h
  split at h <;> cases h
  · unfold State.endFrame
    split
    case h_1 => exact setLine s _
    case h_2 => split <;> [exact (setLine s _).trans (post _ _); split] <;> exact setLine s _
    case h_3 => split <;> exact setLine s _
    case h_4 => exact setLine s _
    all_goals exact refl s
  · exact refl s

theorem execJoiningTimerExpiry {s t : State} (h : execJoiningTimerExpiry s = .next t) : LocalKept s t := by
  unfold Machine.execJoiningTimerExpiry at h
  split at h <;> cases h
  · exact (setLine s _).trans (post _ _)
  · exact refl s

/-! ### Timers, formation and the PACE inputs (R76, R81, R84, R107, R114) -/

theorem execResponseTimerExpiry {s t : State} {i : Fin 16} (h : execResponseTimerExpiry i s = .next t) :
    LocalKept s t := by
  unfold Machine.execResponseTimerExpiry at h
  split at h <;> cases h
  · exact retryEntry s i
  · exact refl s

theorem execHoldTimerExpiry {s t : State} {i : Fin 16} (h : execHoldTimerExpiry i s = .next t) : LocalKept s t := by
  unfold Machine.execHoldTimerExpiry at h
  split at h <;> cases h
  · exact queueTail s i rfl
  · exact refl s

theorem execFormation {s t : State} (h : execFormation s = .next t) : LocalKept s t := by
  unfold Machine.execFormation at h
  split at h
  case h_1 c i _ hi =>
    split at h <;> cases h
    · exact formData (freeIndex_free hi) c
    · exact refl s
  all_goals cases h; exact refl s

theorem execSignalFormation {s t : State} (h : execSignalFormation s = .next t) : LocalKept s t := by
  unfold Machine.execSignalFormation at h
  split at h
  case h_1 c i _ hi =>
    split at h <;> cases h
    · exact formSignal (freeIndex_free hi) c
    · exact refl s
  all_goals cases h; exact refl s

theorem execPaceAsserted {s t : State} {n : Fin 4} (h : execPaceAsserted n s = .next t) : LocalKept s t := by
  unfold Machine.execPaceAsserted at h
  split at h <;> cases h
  · exact refl s
  · exact of_beside rfl rfl rfl rfl rfl rfl

/-! ### The resets (R161, R183, R185) -/

/-- A full reset frees every buffer and every record and leaves the engine idle; the write cycle it cuts stays inside
local memory. -/
theorem fullReset (s : State) : LocalKept s s.fullReset where
  memory := cutCycle_wf
  jobs := fun _ => (jobsOk_idle_iff rfl).mpr ⟨rfl, rfl, nofun⟩
  idle := fun _ _ => ⟨rfl, rfl⟩
  pool := fun _ => poolInv_of_reset (fullReset_atFullReset s)

/-- The start read is started like any other job (R160). -/
theorem beginStart (s : State) (straps : Station) : LocalKept s (s.beginStart straps) := by
  rw [beginStart_eq]
  exact ⟨id, fun h => jobsOk_started h.2.2.2 ⟨rfl, rfl, rfl⟩ _ _, fun _ => nofun, id⟩

theorem execStationReset {s t : State} {straps : Station} (h : execStationReset straps s = .next t) :
    LocalKept s t := by
  unfold Machine.execStationReset at h
  split at h <;> cases h
  · exact refl s
  · exact (fullReset s).trans (beginStart _ _)

/-- RESET# is held with the grant as it stood, and an idle engine agrees with either level. -/
theorem execResetAsserted {s t : State} {straps : Station} (h : execResetAsserted straps s = .next t) :
    LocalKept s t := by
  cases h
  exact ⟨(fullReset s).memory, fun _ => (jobsOk_idle_iff rfl).mpr ⟨rfl, rfl, nofun⟩, (fullReset s).idle,
    (fullReset s).pool⟩

theorem execResetReleased {s t : State} {straps : Station} (h : execResetReleased straps s = .next t) :
    LocalKept s t := by
  unfold Machine.execResetReleased at h
  split at h <;> cases h
  · exact beginStart s straps
  · exact refl s

/-! ### Every command and every step -/

theorem cmdWrite {s t : State} {code : Word} (h : cmdWrite code s = .next t) : LocalKept s t := by
  rcases cmdWrite_cases code s with ⟨p, hp, he⟩ | he | he <;> rw [he] at h
  · cases h; exact ownedCommand p hp s
  · exact execStationReset h
  · cases h; exact takeUnknown code s

theorem execPortWordWrite {s t : State} {address : BitVec 24} {value : Word} {enables : BitVec 4}
    (h : execPortWordWrite address value enables s = .next t) : LocalKept s t := by
  unfold Machine.execPortWordWrite at h
  split_ifs at h
  · exact cmdWrite h
  · cases h; exact portPop s
  · cases h; exact portEnable _ _ s
  · cases h; exact portArgument _ _ _ s

theorem exec {c : Instr} {s t : State} (h : exec c s = .next t) : LocalKept s t := by
  have howned : ∀ p ∈ ownedCommands, .next (Machine.takeCommand p.2.1 p.2.2 s) = Machine.exec c s → LocalKept s t := by
    intro p hp he
    rw [h] at he
    cases he
    exact ownedCommand p hp s
  simp only [ownedCommands, List.forall_mem_cons, List.not_mem_nil, false_implies, implies_true, and_true] at howned
  obtain ⟨hopen, hpark, hunpark, hclose, hgrants, hquery, hconsume, hload, hstart, habort, hclear, hcopy, hrestart⟩ :=
    howned
  cases c with
  | winOpen => exact hopen rfl
  | winPark => exact hpark rfl
  | winUnpark => exact hunpark rfl
  | winClose => exact hclose rfl
  | winGrants => exact hgrants rfl
  | winQuery => exact hquery rfl
  | mboxConsume => exact hconsume rfl
  | chLoad => exact hload rfl
  | chStart => exact hstart rfl
  | chAbort => exact habort rfl
  | chClear => exact hclear rfl
  | chQuery => exact hcopy rfl
  | lineRestart => exact hrestart rfl
  | stationReset straps => exact execStationReset h
  | unknownCommand value enables => exact cmdWrite h
  | noticePop value => cases h; exact portPop s
  | intEnable value enables => cases h; exact portEnable _ _ s
  | portWordWrite address value enables => exact execPortWordWrite h
  | resetAsserted straps => exact execResetAsserted h
  | resetReleased straps => exact execResetReleased h
  | paceAsserted n => exact execPaceAsserted h
  | paceDeasserted n => cases h; exact of_beside rfl rfl rfl rfl rfl rfl
  | lbgntAsserted => exact execLbgntAsserted h
  | lbgntDeasserted => exact execLbgntDeasserted h
  | lberr inCycle => exact execLberr h
  | busCycleComplete stores => exact execBusCycleComplete h
  | grantWaitExpiry => exact execGrantWaitExpiry h
  | startOpportunity => exact execStartOpportunity h
  | startMark seen => cases h; exact setLine s _
  | roundLost => exact execRoundLost h
  | roundWon => exact execRoundWon h
  | frameCrcReceived conds => exact execFrameCrcReceived h
  | frameEnd conds => exact execFrameEnd h
  | sentFrameEnd slot => exact execSentFrameEnd h
  | clash => exact execClash h
  | joiningTimerExpiry => exact execJoiningTimerExpiry h
  | responseTimerExpiry entry => exact execResponseTimerExpiry h
  | holdTimerExpiry entry => exact execHoldTimerExpiry h
  | formation => exact execFormation h
  | signalFormation => exact execSignalFormation h

theorem step {s t : State} (h : step s = .next t) : LocalKept s t := by
  unfold Machine.step at h
  split at h
  · cases h; exact refl s
  · rename_i c rest _
    exact LocalKept.trans (t := { s with pending := rest }) (of_beside rfl rfl rfl rfl rfl rfl) (exec h)

end LocalKept

/-! ### What every step keeps -/

/-- Settles O53: only a bus cycle and the write cycle that a full reset cuts store bytes, and each byte is stored inside
the address space by the write that keeps the canonical form. -/
theorem memoryStaysCanonical : Obligations.MemoryStaysCanonical := by
  unfold Obligations.MemoryStaysCanonical
  exact fun s t hs h => (LocalKept.step h).memory hs

/-- Settles O55: a started job changes its phase with the grant and the timer, only jobs that have moved nothing are
queued, and every event that queues one or lets one go ends with the arbiter's choice. -/
theorem engineStaysInStep : Obligations.EngineStaysInStep := by
  unfold Obligations.EngineStaysInStep
  rintro s t ⟨hheld, hs⟩ h
  obtain ⟨hjobs, hidle⟩ := (engineOk_iff s).mp hs
  have hkept := LocalKept.step h
  exact ⟨(step_invariants hheld h).1, (engineOk_iff t).mpr ⟨hkept.jobs hjobs, hkept.idle hidle⟩⟩

end Sys2Proof.Machine
end

section
/-! The buffers of the Pool counted by their owners (R147). -/

namespace Sys2Proof.Machine

/-- A side whose owners are `n` in number and hold one buffer each holds at most `n` buffers. -/
theorem countP_held_le {s : State} {n : Nat} {side : Buffer → Bool} (owner : Fin n → BufferOwner) (h : PoolInv s)
    (hside : ∀ x : Buffer, side x = true → ∃ k, x.owner = some (owner k)) : s.buffers.toList.countP side ≤ n := by
  obtain ⟨hholds, -⟩ := (poolInv_iff s).mp h
  have hlist : s.buffers.toList = (List.finRange 24).map fun b => s.buffers[b] :=
    List.ext_getElem (by simp) fun m _ _ => by simp
  rw [hlist, List.countP_map, List.countP_eq_length_filter]
  have hheld : ∀ b ∈ (List.finRange 24).filter (side ∘ fun b => s.buffers[b]),
      some b ∈ (List.finRange n).map fun k => s.namedBuffer (owner k) := fun b hb => by
    obtain ⟨k, hk⟩ := hside s.buffers[b] (List.mem_filter.mp hb).2
    exact List.mem_map.mpr ⟨k, List.mem_finRange k, (hholds b _).mp hk⟩
  have hnodup := ((List.nodup_finRange 24).filter (side ∘ fun b => s.buffers[b])).map (Option.some_injective _)
  have hlen := (hnodup.subperm (l₂ := (List.finRange n).map fun k => s.namedBuffer (owner k))
    (List.forall_mem_map.mpr hheld)).length_le
  simpa using hlen

theorem onRequesterSide_iff (x : Buffer) : x.onRequesterSide = true ↔ ∃ i, x.owner = some (.entry i) := by
  unfold Buffer.onRequesterSide
  split <;> simp_all

/-- The requester side holds at most one buffer for each entry (R146, R147). -/
theorem requesterHeld_le {s : State} (h : PoolInv s) : requesterHeld s ≤ 16 :=
  countP_held_le .entry h fun x hx => (onRequesterSide_iff x).mp hx

/-- Every buffer is free, held by an entry or held by an operation. -/
theorem buffers_by_side (l : List Buffer) :
    l.countP (fun x => x.owner.isNone) + l.countP Buffer.onRequesterSide + l.countP Buffer.onResponderSide =
      l.length := by
  induction l with
  | nil => rfl
  | cons x rest ih =>
    obtain ⟨owner, data⟩ := x
    rw [List.countP_cons, List.countP_cons, List.countP_cons, List.length_cons]
    rcases owner with - | ⟨k⟩ | ⟨i⟩ <;> simp [Buffer.onRequesterSide, Buffer.onResponderSide] <;> omega

/-- Settles O58: a buffer changes hands where an entry or an operation is given a free one and where its owner lets it
go, and there owner and record change together (`PoolInv.given`, `PoolInv.released`); so each side holds at most one
buffer for each of its owners. -/
theorem poolKeepsCaps : Obligations.PoolKeepsCaps := by
  unfold Obligations.PoolKeepsCaps
  refine ⟨fun s t hs h => (LocalKept.step h).pool hs, fun s hs => ⟨?_, requesterHeld_le hs, responderHeld_le hs⟩,
    fun s => ⟨?free, ?requester, ?responder⟩⟩
  · have hsum := buffers_by_side s.buffers.toList
    rwa [Vector.length_toList] at hsum
  case free =>
    refine List.countP_congr fun x _ => ?_
    rw [Option.isNone_iff_eq_none, beq_iff_eq]
  case requester =>
    refine List.countP_congr fun x _ => ?_
    rw [Buffer.onRequesterSide]
    split <;> simp_all
  case responder =>
    refine List.countP_congr fun x _ => ?_
    rw [Buffer.onResponderSide]
    split <;> simp_all

end Sys2Proof.Machine
end

section
/-! The grant and the bus cycles of a started job (R153 to R155, R160, R162, R163). -/

namespace Sys2Proof.Machine

/-! ### The grant (R153, R155, R162) -/

section
variable {s : State} {j : Job} (hj : s.engine.job = some j)

theorem lbgntAsserted_idle (hnone : s.engine.job = none) :
    exec .lbgntAsserted s = .next { s with pins := { s.pins with lbgnt := true } } := by
  show execLbgntAsserted s = _
  rw [execLbgntAsserted, hnone]

theorem lbgntDeasserted_idle (hnone : s.engine.job = none) :
    exec .lbgntDeasserted s = .next { s with pins := { s.pins with lbgnt := false } } := by
  show execLbgntDeasserted s = _
  rw [execLbgntDeasserted, hnone]

include hj

theorem lbgntAsserted_started : exec .lbgntAsserted s = .next { s with
    pins := { s.pins with lbgnt := true }
    engine := { s.engine with job := some { j with phase := .moving, lastCycle := false }, timer := none } } := by
  show execLbgntAsserted s = _
  rw [execLbgntAsserted, hj]

theorem lbgntDeasserted_started : exec .lbgntDeasserted s = .next { s with
    pins := { s.pins with lbgnt := false }
    engine := { s.engine with job := some { j with lastCycle := decide (j.phase = .moving) } } } := by
  show execLbgntDeasserted s = _
  rw [execLbgntDeasserted, hj]

end

/-- An LBERR that falls in no cycle of a MOVING job finds nothing to end. -/
theorem lberr_outside {s : State} {inCycle : Bool}
    (h : s.engine.job = none ∨ (∃ j, s.engine.job = some j ∧ j.phase ≠ .moving) ∨ inCycle = false) :
    exec (.lberr inCycle) s = .next s := by
  show execLberr s inCycle = _
  unfold execLberr
  split
  · rfl
  · rename_i j hj
    rw [if_neg]
    rintro ⟨hphase, hin⟩
    rcases h with hnone | ⟨j', hj', hne⟩ | hout
    · rw [hnone] at hj; cases hj
    · rw [hj'] at hj; cases hj; exact hne hphase
    · rw [hout] at hin; cases hin

/-- Settles O40: the grant's two events rewrite the started job's phase and flag, which for a REQUESTING job without its
last cycle leaves the loss of the grant with nothing to say. -/
theorem grantMovesJob : Obligations.GrantMovesJob := by
  unfold Obligations.GrantMovesJob
  rintro s p rfl
  refine ⟨fun hnone => ⟨lbgntAsserted_idle hnone, lbgntDeasserted_idle hnone⟩, fun j hj hphase hlast => ?requesting,
    fun j hj hphase => ?moving, fun inCycle => lberr_outside⟩
  case requesting =>
    have hmoved : { j with phase := .moving, lastCycle := false } = { j with phase := .moving } := by rw [← hlast]
    have hsame : { j with lastCycle := decide (j.phase = .moving) } = j := by
      rw [decide_eq_false (by rw [hphase]; decide), ← hlast]
    rw [lbgntAsserted_started hj, lbgntDeasserted_started hj, hmoved, hsame, ← hj]
    exact ⟨rfl, rfl⟩
  case moving =>
    rw [lbgntAsserted_started hj, lbgntDeasserted_started hj, hphase, decide_eq_true rfl, ← hphase]
    exact ⟨rfl, rfl⟩

/-! ### A cycle that does not end its job (R154, R155, R163) -/

/-- A store or a cycle at an address that does not exist (log 6). -/
theorem busCycleComplete_outside {s : State} {stores : List Host.Cell} {j : Job} (hj : s.engine.job = some j)
    (hphase : j.phase = .moving)
    (hout : (∃ c ∈ stores, 16777216 ≤ c.1) ∨ ∃ a ∈ j.cycleAddresses, 16777216 ≤ a) :
    exec (.busCycleComplete stores) s = .fault .outsideLocalMemory := by
  have hnot : ¬((stores.all fun c => decide (c.1 < Config.memorySize)) &&
      j.cycleAddresses.all fun a => decide (a < Config.memorySize)) = true := by
    simp only [Bool.and_eq_true, List.all_eq_true, decide_eq_true_eq]
    rintro ⟨hstores, hcycle⟩
    rcases hout with ⟨c, hc, hge⟩ | ⟨a, ha, hge⟩
    · exact absurd (hstores c hc) (Nat.not_lt.mpr hge)
    · exact absurd (hcycle a ha) (Nat.not_lt.mpr hge)
  show execBusCycleComplete stores s = _
  simp only [execBusCycleComplete, hj, hphase, if_true, if_neg hnot]

/-- With no job MOVING there is no cycle in progress (log 1). -/
theorem busCycleComplete_noCycle {s : State} (stores : List Host.Cell)
    (h : ∀ j, s.engine.job = some j → j.phase ≠ .moving) : exec (.busCycleComplete stores) s = .next s := by
  show execBusCycleComplete stores s = _
  unfold execBusCycleComplete
  split
  · rfl
  · rename_i j hj
    exact if_neg (h j hj)

/-- A cycle that leaves bytes to move is followed by the next, or by a new wait for the grant (R154, R155). -/
theorem busCycleComplete_continued {s : State} {stores : List Host.Cell} {j : Job} (hj : s.engine.job = some j)
    (hphase : j.phase = .moving) (hstores : ∀ c ∈ stores, c.1 < 16777216)
    (hcycle : ∀ a ∈ j.cycleAddresses, a < 16777216) (hmore : j.moved + j.cycleLength < j.length) :
    exec (.busCycleComplete stores) s = .next
      ((State.moveCycle { s with mem := Memory.writeCells s.mem stores } j).continueJob j) := by
  have hinside : ((stores.all fun c => decide (c.1 < Config.memorySize)) &&
      j.cycleAddresses.all fun a => decide (a < Config.memorySize)) = true := by
    simp only [Bool.and_eq_true, List.all_eq_true, decide_eq_true_eq]
    exact ⟨hstores, hcycle⟩
  show execBusCycleComplete stores s = _
  simp only [execBusCycleComplete, hj, hphase, hinside, if_true, State.completeCycle, if_neg (Nat.not_le.mpr hmore)]

/-- The engine once a cycle has not ended its job: the grant wait starts anew where the grant went (R155). -/
def Engine.continued (e : Engine) (j : Job) (limit : Nat) : Engine :=
  if j.lastCycle then
    { e with
      job := some { j with moved := j.moved + j.cycleLength, phase := .requesting, lastCycle := false }
      timer := some limit }
  else { e with job := some { j with moved := j.moved + j.cycleLength } }

theorem continueJob_eq (s : State) (j : Job) :
    s.continueJob j = s.setEngine (s.engine.continued j (grantLimit s j)) := by
  unfold State.continueJob Engine.continued
  split <;> rfl

theorem moveCycle_holding {s : State} {j : Job} (h : j.kind = .read) (hb : j.buffer = none) :
    s.moveCycle j = { s with loader := { s.loader with holding := placeBytes s.loader.holding s.mem j } } := by
  rw [State.moveCycle, h, hb]

theorem grantLimit_moveCycle (s : State) (j : Job) : grantLimit (s.moveCycle j) j = grantLimit s j := by
  have hconfig : (s.moveCycle j).loader.config = s.loader.config := by
    unfold State.moveCycle
    split
    · rfl
    · split <;> rfl
  rw [grantLimit, hconfig]
  rfl

/-- Of bytes stored at addresses of their own each stands. -/
theorem Memory.read_writeCells_of_mem {cells : List Host.Cell} {m : Memory} (h : Memory.wf m = true)
    (hsize : ∀ c ∈ cells, c.1 < Config.memorySize) (hown : (cells.map Prod.fst).Nodup) {c : Host.Cell}
    (hc : c ∈ cells) : Memory.read (Memory.writeCells m cells) c.1 = c.2 := by
  induction cells generalizing m with
  | nil => cases hc
  | cons d rest ih =>
    rw [List.map_cons, List.nodup_cons] at hown
    have hd : Memory.wf (Memory.write m d.1 d.2) = true := Memory.write_wf h (hsize d List.mem_cons_self) d.2
    have hrest : ∀ c ∈ rest, c.1 < Config.memorySize := fun c hc => hsize c (List.mem_cons_of_mem d hc)
    show Memory.read (Memory.writeCells (Memory.write m d.1 d.2) rest) c.1 = c.2
    rcases List.mem_cons.mp hc with rfl | hc
    · rw [Memory.read_writeCells_of_ne hd hrest fun d' hd' he => hown.1 (List.mem_map.mpr ⟨d', hd', he⟩),
        Memory.read_write (low := 0) h, if_pos rfl]
    · exact ih hd hrest hown.2 hc

/-- A cycle's addresses are as many as its bytes. -/
theorem cycleAddresses_nodup (j : Job) : j.cycleAddresses.Nodup := by
  have hpositions : j.cyclePositions.Nodup := List.nodup_range.map fun a b h => Nat.add_left_cancel h
  refine hpositions.map_on fun k hk k' hk' he => ?_
  have hlow := (mem_cyclePositions.mp hk).1
  have hlow' := (mem_cyclePositions.mp hk').1
  rw [byteAddress_run hlow (cyclePositions_word hk).2, byteAddress_run hlow' (cyclePositions_word hk').2] at he
  omega

theorem cycleCells_addresses (s : State) (j : Job) : (cycleCells s j).map Prod.fst = j.cycleAddresses := by
  rw [cycleCells, List.map_map]
  rfl

/-- A WRITE's cycle stores its bytes at its addresses (R154). -/
theorem read_cycleCells {s : State} {j : Job} {m : Memory} (h : Memory.wf m = true)
    (hcycle : ∀ a ∈ j.cycleAddresses, a < Config.memorySize) {k : Nat} (hk : k ∈ j.cyclePositions) :
    Memory.read (Memory.writeCells m (cycleCells s j)) (j.byteAddress k) = jobByte s j k :=
  Memory.read_writeCells_of_mem (c := (j.byteAddress k, jobByte s j k)) h
    (fun _ hc => hcycle _ (cycleCells_address hc)) (cycleCells_addresses s j ▸ cycleAddresses_nodup j)
    (List.mem_map_of_mem hk)

/-- A cycle's effect on the board's memory `m`, by the job's kind and where its bytes go (R154, R160). -/
theorem moveCycle_bytes {s : State} {j : Job} (h : Memory.wf s.mem = true)
    (hcycle : ∀ a ∈ j.cycleAddresses, a < Config.memorySize) (t : State) (ht : t = s.moveCycle j) :
    { t with mem := s.mem, buffers := s.buffers, loader := s.loader } = s ∧
    (j.kind = .write → t.buffers = s.buffers ∧ t.loader = s.loader ∧
      (∀ k ∈ j.cyclePositions, Memory.read t.mem (j.byteAddress k) = jobByte s j k) ∧
      ∀ a, a ∉ j.cycleAddresses → Memory.read t.mem a = Memory.read s.mem a) ∧
    (∀ b, j.kind = .read → j.buffer = some b → t.mem = s.mem ∧ t.loader = s.loader ∧
      t.buffers[b].owner = s.buffers[b].owner ∧ (∀ d : Fin 24, d ≠ b → t.buffers[d] = s.buffers[d]) ∧
      ∀ k : Fin 64, t.buffers[b].data[k] =
        if k.val ∈ j.cyclePositions then Memory.read s.mem (j.byteAddress k.val) else s.buffers[b].data[k]) ∧
    (j.kind = .read → j.buffer = none → t.mem = s.mem ∧ t.buffers = s.buffers ∧
      t.loader = { s.loader with holding := t.loader.holding } ∧
      ∀ k : Fin 44, t.loader.holding[k] =
        if k.val ∈ j.cyclePositions then Memory.read s.mem (j.byteAddress k.val) else s.loader.holding[k]) := by
  subst ht
  refine ⟨?rest, fun hkind => ?write, fun b hkind hb => ?read, fun hkind hb => ?holding⟩
  case rest =>
    obtain ⟨m, bs, l, he⟩ := moveCycle_eq s j
    rw [he]
  case write =>
    have hother := fun a => moveCycle_read_other (a := a) h hcycle
    rw [moveCycle_write hkind] at hother ⊢
    exact ⟨rfl, rfl, fun k hk => read_cycleCells h hcycle hk, hother⟩
  case read =>
    rw [moveCycle_read hkind hb]
    refine ⟨rfl, rfl, ?_, fun d hd => setBuffer_get_other s b d _ hd.symm, fun k => ?_⟩ <;> rw [setBuffer_get_self]
    exact placeBytes_getElem _ _ _ k
  case holding =>
    rw [moveCycle_holding hkind hb]
    exact ⟨rfl, rfl, rfl, placeBytes_getElem _ _ _⟩

/-- Settles O41: the board's stores come first, the cycle then moves its bytes on the memory they leave, and the engine
goes on with the job; the addresses of a cycle rise, so no byte of it overwrites another. -/
theorem busCycleMovesBytes : Obligations.BusCycleMovesBytes := by
  unfold Obligations.BusCycleMovesBytes
  refine ⟨?moves, fun s stores => ⟨fun j => busCycleComplete_outside, fun hnone => ?idle, fun j hj hphase => ?waiting⟩,
    fun s j => rfl, fun m stores c a hwf hstores => ⟨rfl, Memory.read_writeCells_append hwf hstores c a⟩⟩
  case moves =>
    rintro s stores j m e hj hphase hwf hstores hcycle hmore rfl rfl
    rw [busCycleComplete_continued hj hphase hstores hcycle hmore, continueJob_eq, grantLimit_moveCycle]
    obtain ⟨hrest, hwrite, hread, hholding⟩ := moveCycle_bytes
      (s := { s with mem := Memory.writeCells s.mem stores }) (Memory.writeCells_wf hwf hstores) hcycle _ rfl
    have hengine := (moveCycle_quiet { s with mem := Memory.writeCells s.mem stores } j).2
    rw [hengine]
    refine ⟨_, rfl, ?_, rfl, hwrite, hread, hholding⟩
    exact congrArg (fun u : State => { u with mem := s.mem, engine := s.engine }) hrest
  case idle => exact busCycleComplete_noCycle stores fun j hj => by rw [hnone] at hj; cases hj
  case waiting => exact busCycleComplete_noCycle stores fun j' hj' => by rw [hj] at hj'; cases hj'; exact hphase

end Sys2Proof.Machine
end

section
/-! Where a post is stored (R167, R168), and what the port's writes leave of the Notice Queue (R170, R171). -/

namespace Sys2Proof.Machine

/-! ### A post by the marker and the count (R167, R168) -/

theorem hasMarker_iff (q : NoticeQueue) : q.hasMarker = true ↔ Notice.overflow ∈ q.records := by
  simp [NoticeQueue.hasMarker]

/-- Without a marker at 31 records the marker takes the post's place (R167). -/
theorem postRecords_last {q : NoticeQueue} (n : Notice) (hm : Notice.overflow ∉ q.records)
    (hl : q.records.length = 31) : q.postRecords n = q.records ++ [.overflow] := by
  have hmark : ¬q.hasMarker = true := mt (hasMarker_iff q).mp hm
  rw [NoticeQueue.postRecords, if_neg hmark, if_neg (by simp [hl, Config.noticeRoom]),
    if_pos (by simp [hl, Config.noticeRoom])]

/-- With the marker and room a post goes directly ahead of it (R168). -/
theorem postRecords_marked {q : NoticeQueue} (n : Notice) (hm : Notice.overflow ∈ q.records)
    (hl : q.records.length ≤ 31) : q.postRecords n = q.records.dropLast ++ [n, .overflow] := by
  rw [NoticeQueue.postRecords, if_pos ((hasMarker_iff q).mpr hm), if_pos (by simp only [Config.noticeRoom]; omega)]

/-- With the marker and no room a post is discarded (R168). -/
theorem postRecords_full {q : NoticeQueue} (n : Notice) (hm : Notice.overflow ∈ q.records)
    (hl : q.records.length = 32) : q.postRecords n = q.records := by
  rw [NoticeQueue.postRecords, if_pos ((hasMarker_iff q).mpr hm), if_neg (by simp [hl, Config.noticeRoom])]

/-- A full queue holds the marker, so one without it has room (R167). -/
theorem room_of_unmarked {q : NoticeQueue} (h : NoticesOk q) (hm : Notice.overflow ∉ q.records) :
    q.records.length ≤ 31 := by
  obtain ⟨hroom, -, hfull, -⟩ := h
  have hne : q.records.length ≠ Config.noticeRoom := mt hfull hm
  simp only [Config.noticeRoom] at hroom hne
  omega

/-- Settles O6: the marker and the count choose between the branches of a post, and a well-formed queue without the
marker is never full. -/
theorem postFindsRoom : Obligations.PostFindsRoom := by
  unfold Obligations.PostFindsRoom
  exact fun q n hq hn => ⟨post_noticesOk hq hn, rfl, room_of_unmarked hq,
    fun hm hl => postRecords_room n hm (Nat.lt_succ_of_le hl), postRecords_last n, postRecords_marked n,
    postRecords_full n⟩

/-! ### The port's writes (R170, R171, R178) -/

theorem portPop_released {s : State} (h : s.pins.resetHeld = false) :
    portPop s = { s with notices := s.notices.pop } := by
  simp [portPop, h]

theorem portEnable_released {s : State} (h : s.pins.resetHeld = false) (value : Word) (enables : BitVec 4) :
    portEnable value enables s =
      if enables.getLsbD 0 then { s with notices := s.notices.setEnable (value.getLsbD 0) } else s := by
  simp [portEnable, h]

/-- A pop of an empty queue changes nothing: INT stands deasserted already. -/
theorem pop_empty {q : NoticeQueue} (h : NoticesOk q) (hnil : q.records = []) : q.pop = q := by
  obtain ⟨records, enable, int⟩ := q
  obtain rfl : records = [] := hnil
  obtain ⟨-, -, -, hint⟩ := h
  simp only [List.isEmpty_nil, Bool.not_true, Bool.and_false] at hint
  simp [NoticeQueue.pop, NoticeQueue.updateInt, hint]

/-- The marker is the newest record, so a pop that removes it empties the queue (R168, R170). -/
theorem tail_of_marked_head {q : NoticeQueue} (h : NoticesOk q) (hhead : q.records.head? = some .overflow) :
    q.records.tail = [] := by
  obtain ⟨-, hmark, -, -⟩ := h
  cases hr : q.records with
  | nil => rfl
  | cons a rest =>
    rw [hr] at hhead hmark
    obtain rfl : a = .overflow := by simpa using hhead
    cases rest with
    | nil => rfl
    | cons b rest => simp at hmark

theorem portRead_noticePop {address : BitVec 24} (h : portPosition address = 14) (s : State) :
    portRead address s = 0 := by
  simp only [portRead, h]

/-- Settles O5: outside reset the port's pop and enable writes are the queue's own operations, which set INT from the
count and the enable; the marker, newest of a well-formed queue, is its head only where it stands alone. -/
theorem noticePortWrites : Obligations.NoticePortWrites := by
  unfold Obligations.NoticePortWrites
  refine ⟨fun s value hr => ?pop, fun s value enables hr => ?enable⟩
  case pop =>
    have hpop : exec (.noticePop value) s = .next { s with notices := s.notices.pop } :=
      congrArg Host.Outcome.next (portPop_released hr)
    refine ⟨hpop, fun hok hnil => ?_, tail_of_marked_head, fun address ha => portRead_noticePop ha s⟩
    rw [hpop, pop_empty hok hnil]
  case enable =>
    have henable : exec (.intEnable value enables) s = .next (if enables.getLsbD 0 then
        { s with notices := s.notices.setEnable (value.getLsbD 0) } else s) :=
      congrArg Host.Outcome.next (portEnable_released hr value enables)
    refine ⟨fun hon => ?_, fun hoff => ?_⟩
    · rw [henable, if_pos hon]; rfl
    · rw [henable, if_neg (Bool.eq_false_iff.mp hoff)]

end Sys2Proof.Machine
end

section
/-! What each operation posts: a list of notices without the marker, on top of what stood in the queue. -/

namespace Sys2Proof.Machine

/-- `q'` is `q` after posts of notices, none of them the marker, which the queue alone stores (R166, R167). -/
def Posted (q q' : NoticeQueue) : Prop := ∃ ns : List Notice, Notice.overflow ∉ ns ∧ q' = ns.foldl NoticeQueue.post q

namespace Posted

theorem refl (q : NoticeQueue) : Posted q q := ⟨[], List.not_mem_nil, rfl⟩

theorem of_eq {q q' : NoticeQueue} (h : q' = q) : Posted q q' := h ▸ refl q

theorem trans {q q' q'' : NoticeQueue} (h : Posted q q') (g : Posted q' q'') : Posted q q'' := by
  obtain ⟨ns, hns, rfl⟩ := h
  obtain ⟨ms, hms, rfl⟩ := g
  exact ⟨ns ++ ms, by simp [hns, hms], List.foldl_append.symm⟩

/-- A block posts one notice. -/
theorem one (q : NoticeQueue) {n : Notice} (h : n ≠ .overflow) : Posted q (q.post n) :=
  ⟨[n], by simpa using h.symm, rfl⟩

theorem noticesOk {q q' : NoticeQueue} (h : Posted q q') (hq : NoticesOk q) : NoticesOk q' := by
  obtain ⟨ns, hns, rfl⟩ := h
  induction ns generalizing q with
  | nil => exact hq
  | cons n ns ih =>
    obtain ⟨hn, hns⟩ := not_or.mp (mt List.mem_cons.mpr hns)
    exact ih (post_noticesOk hq (Ne.symm hn)) hns

end Posted

theorem post_posted (s : State) {n : Notice} (h : n ≠ .overflow) : Posted s.notices (s.post n).notices := .one _ h

/-! ### Operations that post nothing -/

theorem giveBuffer_notices (s : State) (b : Option (Fin 24)) (o : BufferOwner) :
    (s.giveBuffer b o).notices = s.notices := by
  cases b <;> rfl

theorem returnBuffer_notices (s : State) (b : Option (Fin 24)) : (s.returnBuffer b).notices = s.notices := by
  cases b <;> rfl

theorem fillBuffer_notices (s : State) (b : Option (Fin 24)) (payload : List Byte) :
    (s.fillBuffer b payload).notices = s.notices := by
  cases b <;> rfl

theorem selectJob_notices (s : State) : s.selectJob.notices = s.notices := by
  obtain ⟨e, he⟩ := selectJob_eq s
  rw [he, State.setEngine_notices]

theorem queueResponder_notices (s : State) (j : Job) : (s.queueResponder j).notices = s.notices :=
  selectJob_notices _

theorem queueRequester_notices (s : State) (j : Job) : (s.queueRequester j).notices = s.notices :=
  selectJob_notices _

theorem moveCycle_notices (s : State) (j : Job) : (s.moveCycle j).notices = s.notices := by
  obtain ⟨m, bs, l, he⟩ := moveCycle_eq s j
  rw [he]

theorem continueJob_notices (s : State) (j : Job) : (s.continueJob j).notices = s.notices := by
  unfold State.continueJob
  split <;> rfl

theorem freeEntry_notices (s : State) (i : Fin 16) : (s.freeEntry i).notices = s.notices :=
  returnBuffer_notices s _

theorem sendEntry_notices (s : State) (i : Fin 16) : (s.sendEntry i).notices = s.notices := by
  unfold State.sendEntry
  split <;> rfl

theorem entryRoundLost_notices (s : State) (i : Fin 16) : (s.entryRoundLost i).notices = s.notices := by
  unfold State.entryRoundLost
  split
  · exact freeEntry_notices s i
  · rfl

/-- A release and the change of its channel's record (R89, R93). -/
theorem released_notices (s : State) (f : Fin 16 → Release) (c : Fin 8) (r : Channel) :
    ((s.releaseEntries f).setChannel c r).notices = s.notices := by
  rw [State.setChannel_notices, State.releaseEntries]

theorem haltChannel_notices (s : State) (c : Fin 8) (code : FaultCode) (offset : Nat) (atSignal : Bool) :
    (s.haltChannel c code offset atSignal).notices = s.notices :=
  released_notices s _ c _

theorem launch_notices (s : State) (i : Fin 16) (e : Entry) : (s.launch i e).notices = s.notices := by
  unfold State.launch
  split
  · exact queueRequester_notices s _
  all_goals rfl

theorem formData_notices (s : State) (c : Fin 8) (i : Fin 16) : (s.formData c i).notices = s.notices :=
  (launch_notices _ _ _).trans (giveBuffer_notices s _ _)

theorem formSignal_notices (s : State) (c : Fin 8) (i : Fin 16) : (s.formSignal c i).notices = s.notices :=
  launch_notices _ _ _

theorem landData_notices (s : State) (i : Fin 16) (payload : List Byte) :
    (s.landData i payload).notices = s.notices :=
  (queueRequester_notices _ _).trans (fillBuffer_notices s _ payload)

theorem placePayload_notices (s : State) (r : Request) : (s.placePayload r).notices = s.notices := by
  unfold State.placePayload
  split
  · exact fillBuffer_notices s _ _
  · rfl

theorem executeRequest_notices (s : State) (k : Fin 8) (r : Request) :
    (s.executeRequest k r).notices = s.notices := by
  rw [executeRequest_eq]
  exact queueResponder_notices s _

theorem endOperation_notices (s : State) (k : Fin 8) (op : Operation) : (s.endOperation k op).notices = s.notices :=
  returnBuffer_notices s _

theorem responseSent_notices (s : State) (k : Fin 8) (taken : Bool) : (s.responseSent k taken).notices = s.notices := by
  unfold State.responseSent
  split
  · rfl
  · split
    · exact endOperation_notices s k _
    · split
      · rfl
      · exact endOperation_notices s k _

/-! ### The requester side (R83 to R91, R106 to R117) -/

theorem endOfPass_posted (s : State) (c : Fin 8) : Posted s.notices (s.endOfPass c).notices := by
  unfold State.endOfPass
  split <;> exact .one _ nofun

theorem settleHalting_posted (s : State) (c : Fin 8) : Posted s.notices (s.settleHalting c).notices := by
  unfold State.settleHalting
  split
  · exact .one _ nofun
  · exact .refl _

theorem reportComplete_posted (s : State) (c : Fin 8) : Posted s.notices (s.reportComplete c).notices := by
  unfold State.reportComplete
  split
  · split
    · split
      · exact .refl _
      · exact endOfPass_posted (s.lowerLive c) c
    · exact .refl _
  · exact endOfPass_posted (s.lowerLive c) c
  · exact settleHalting_posted (s.lowerLive c) c
  all_goals exact .refl _

theorem reportFailure_posted (s : State) (c : Fin 8) (code : FaultCode) (offset : Nat) (atSignal : Bool) :
    Posted s.notices (s.reportFailure c code offset atSignal).notices := by
  have hhalt := settleHalting_posted (s.haltChannel c code offset atSignal) c
  rw [haltChannel_notices] at hhalt
  unfold State.reportFailure
  split
  · exact hhalt
  · exact hhalt
  · exact hhalt
  · exact settleHalting_posted (s.lowerLive c) c
  all_goals exact .refl _

theorem completeEntry_posted (s : State) (i : Fin 16) : Posted s.notices (s.completeEntry i).notices := by
  have hfree := Posted.of_eq (freeEntry_notices s i)
  unfold State.completeEntry
  split
  · exact hfree
  · exact hfree.trans (reportComplete_posted _ _)

theorem failEntry_posted (s : State) (i : Fin 16) (code : FaultCode) :
    Posted s.notices (s.failEntry i code).notices := by
  have hfree := Posted.of_eq (freeEntry_notices s i)
  unfold State.failEntry
  split
  · exact hfree
  · exact hfree.trans (reportFailure_posted _ _ _ _ _)

theorem dropEntry_posted (s : State) (i : Fin 16) : Posted s.notices (s.dropEntry i).notices := by
  have hfree := Posted.of_eq (freeEntry_notices s i)
  unfold State.dropEntry
  split
  · exact hfree
  · rename_i c _
    exact hfree.trans (settleHalting_posted ((s.freeEntry i).lowerLive c) c)

theorem retryEntry_posted (s : State) (i : Fin 16) : Posted s.notices (s.retryEntry i).notices := by
  unfold State.retryEntry
  split
  · split
    · exact dropEntry_posted s i
    · exact .refl _
  · exact failEntry_posted s i _

theorem holdEntry_posted (s : State) (i : Fin 16) : Posted s.notices (s.holdEntry i).notices := by
  unfold State.holdEntry
  split
  · split
    · exact dropEntry_posted s i
    · exact .refl _
  · exact failEntry_posted s i _

theorem entrySent_posted (s : State) (i : Fin 16) (taken : Bool) : Posted s.notices (s.entrySent i taken).notices := by
  unfold State.entrySent
  split
  · exact .of_eq (freeEntry_notices s i)
  · split
    · exact .refl _
    · exact retryEntry_posted s i

theorem entryClashed_posted (s : State) (i : Fin 16) : Posted s.notices (s.entryClashed i).notices := by
  unfold State.entryClashed
  split
  · exact .of_eq (freeEntry_notices s i)
  · split
    · exact dropEntry_posted s i
    · exact .refl _

theorem entryJobEnd_posted (s : State) (i : Fin 16) (faulted : Bool) :
    Posted s.notices (s.entryJobEnd i faulted).notices := by
  unfold State.entryJobEnd
  split
  · exact .of_eq (freeEntry_notices s i)
  · split
    · exact failEntry_posted s i _
    · split
      · exact dropEntry_posted s i
      · exact .refl _
  · split
    · exact failEntry_posted s i _
    · exact completeEntry_posted s i
  all_goals exact .refl _

theorem settleDone_posted (s : State) (i : Fin 16) (o : DoneOutcome) : Posted s.notices (s.settleDone i o).notices := by
  unfold State.settleDone
  split
  · exact completeEntry_posted s i
  · exact failEntry_posted s i _
  · exact failEntry_posted s i _
  · exact failEntry_posted s i _
  · exact holdEntry_posted s i
  · exact holdEntry_posted s i
  · exact failEntry_posted s i _

theorem takeAnswer_posted (s : State) (a : Answer) : Posted s.notices (s.takeAnswer a).notices := by
  unfold State.takeAnswer
  split
  case isFalse => exact .refl _
  case isTrue =>
    cases a with
    | done tag o => exact settleDone_posted (s.unqueue (tagEntry tag)) _ o
    | data tag payload => exact .of_eq (landData_notices (s.unqueue (tagEntry tag)) _ payload)

/-! ### The responder side (R17, R33 to R39, R53, R54) -/

theorem touchWindow_posted (s : State) (i : Fin 32) (sender : Station) (offset : Nat) :
    Posted s.notices (s.touchWindow i sender offset).notices := by
  unfold State.touchWindow
  split
  · exact .refl _
  · exact .one _ nofun

theorem serveSignal_posted (s : State) (k : Fin 8) (r : Request) : Posted s.notices (s.serveSignal k r).notices := by
  unfold State.serveSignal
  split
  · exact .refl _
  · split
    · exact .refl _
    · exact .one _ nofun

theorem serveWindow_posted (s : State) (k : Fin 8) (r : Request) : Posted s.notices (s.serveWindow k r).notices := by
  unfold State.serveWindow
  split
  · exact .of_eq (executeRequest_notices s k r)
  · exact touchWindow_posted s _ _ _
  · exact .refl _

theorem serveFresh_posted (s : State) (k : Fin 8) (r : Request) : Posted s.notices (s.serveFresh k r).notices := by
  unfold State.serveFresh
  split
  · exact serveSignal_posted s k r
  · exact serveWindow_posted s k r

theorem takeRequest_posted (s : State) (r : Request) : Posted s.notices (s.takeRequest r).1.notices := by
  have hplace := Posted.of_eq (placePayload_notices s r)
  unfold State.takeRequest
  split
  · exact .refl _
  · exact .refl _
  · split
    · exact .refl _
    · exact hplace
  · split
    · exact .refl _
    · exact hplace.trans (serveFresh_posted _ _ r)

theorem drained_unmarked (i : Fin 32) (w : WindowEntry) : Notice.overflow ∉ (drained i w).2 := by
  unfold drained
  split
  · exact List.not_mem_nil
  · split
    · dsimp only
      split <;> simp
    · simp
    · exact List.not_mem_nil

theorem executionEnd_unmarked (i : Fin 32) (w : WindowEntry) (slot : Option Nat) {fault : List Notice}
    (h : Notice.overflow ∉ fault) : Notice.overflow ∉ (executionEnd i w slot fault).2 := by
  cases slot with
  | none => simp [executionEnd, h, drained_unmarked]
  | some p =>
    simp only [executionEnd, List.mem_append, h, drained_unmarked, or_false]
    split <;> simp

theorem endExecution_posted (s : State) (op : Operation) (faulted : Bool) :
    Posted s.notices (s.endExecution op faulted).notices := by
  cases hw : op.window with
  | none => rw [State.endExecution, hw]; exact .refl _
  | some i =>
    rw [endExecution_eq s op i faulted hw]
    exact ⟨_, executionEnd_unmarked i _ _ (by split <;> simp), rfl⟩

theorem operationJobEnd_posted (s : State) (k : Fin 8) (faulted : Bool) :
    Posted s.notices (s.operationJobEnd k faulted).notices := by
  unfold State.operationJobEnd
  split
  · exact .refl _
  · rename_i op _
    rw [answerExecuted_eq, settleRecord_eq]
    exact (endExecution_posted s op faulted).trans (.of_eq (returnBuffer_notices _ _))

/-! ### The end of a job (R157, R159, R189) -/

theorem decideStart_posted (s : State) (faulted : Bool) : Posted s.notices (s.decideStart faulted).notices := by
  unfold State.decideStart
  split
  · exact .one _ nofun
  · split
    · exact .one _ nofun
    · exact .refl _

theorem reportJobEnd_posted (s : State) (o : JobOwner) (faulted : Bool) :
    Posted s.notices (s.reportJobEnd o faulted).notices := by
  cases o with
  | operation k => exact operationJobEnd_posted s k faulted
  | entry i => exact entryJobEnd_posted s i faulted
  | loader => exact decideStart_posted s faulted

theorem endJob_posted (s : State) (o : JobOwner) (faulted : Bool) : Posted s.notices (s.endJob o faulted).notices :=
  (reportJobEnd_posted s.releaseEngine o faulted).trans (.of_eq (selectJob_notices _))

theorem completeCycle_posted (s : State) (j : Job) : Posted s.notices (s.completeCycle j).notices := by
  have hmove := Posted.of_eq (moveCycle_notices s j)
  unfold State.completeCycle
  split
  · exact hmove.trans (endJob_posted _ _ _)
  · exact hmove.trans (.of_eq (continueJob_notices _ j))

end Sys2Proof.Machine
end

section
/-! What a step does to the Notice Queue: it posts, pops, sets the enable or clears the queue, and each keeps it well
formed. -/

namespace Sys2Proof.Machine

/-- What an event can make of the Notice Queue (R165, R166, R170, R171). -/
inductive NoticeMove (q : NoticeQueue) : NoticeQueue → Prop where
  | posted {q' : NoticeQueue} (h : Posted q q') : NoticeMove q q'
  | popped : NoticeMove q q.pop
  | enabled (on : Bool) : NoticeMove q (q.setEnable on)
  | cleared : NoticeMove q .cleared

namespace NoticeMove

theorem of_eq {q q' : NoticeQueue} (h : q' = q) : NoticeMove q q' := .posted (.of_eq h)

theorem refl (q : NoticeQueue) : NoticeMove q q := of_eq rfl

theorem noticesOk {q q' : NoticeQueue} (h : NoticeMove q q') (hq : NoticesOk q) : NoticesOk q' := by
  cases h with
  | posted h => exact h.noticesOk hq
  | popped => exact pop_noticesOk hq
  | enabled on => exact setEnable_noticesOk hq on
  | cleared => exact ⟨Nat.zero_le _, List.not_mem_nil, nofun, rfl⟩

end NoticeMove

/-! ### The port (R170, R171, R177 to R179) -/

theorem takeCommand_posted {code : Word} {owner : State → State × Result}
    (h : ∀ u, Posted u.notices (owner u).1.notices) (s : State) :
    Posted s.notices (takeCommand code owner s).notices := by
  unfold takeCommand
  split
  · exact .refl _
  · split
    · exact h { s with cmd := code }
    · exact .refl _

theorem onWindow_posted {taken : WindowState → Bool} {act : Fin 32 → WindowEntry → State → State × Result}
    (h : ∀ i w u, Posted u.notices (act i w u).1.notices) (s : State) :
    Posted s.notices (onWindow taken act s).1.notices := by
  unfold onWindow
  split
  · split
    · exact h _ _ s
    · exact .refl _
  · exact .refl _

theorem onChannel_posted {taken : ChannelState → Bool} {act : Fin 8 → Channel → State → State × Result}
    (h : ∀ c r u, Posted u.notices (act c r u).1.notices) (s : State) :
    Posted s.notices (onChannel taken act s).1.notices := by
  unfold onChannel
  split
  · split
    · exact h _ _ s
    · exact .refl _
  · exact .refl _

/-- A choice of two answers posts what either does. -/
theorem ite_posted {p : Prop} [Decidable p] {q : NoticeQueue} {a b : State × Result} (ha : Posted q a.1.notices)
    (hb : Posted q b.1.notices) : Posted q (if p then a else b).1.notices := by
  split
  · exact ha
  · exact hb

/-- Of the thirteen commands that an owner takes CH_ABORT alone posts a notice (R92). -/
theorem ownedCommand_posted :
    ∀ p ∈ ownedCommands, ∀ s, Posted s.notices (takeCommand p.2.1 p.2.2 s).notices := by
  suffices howner : ∀ p ∈ ownedCommands, ∀ u, Posted u.notices (p.2.2 u).1.notices from
    fun p hp s => takeCommand_posted (howner p hp) s
  have hstays : ∀ u : State, Posted u.notices u.notices := fun u => .refl _
  simp only [ownedCommands, List.forall_mem_cons, List.not_mem_nil, false_implies, implies_true, and_true]
  refine ⟨?winOpen, ?winPark, ?winUnpark, ?winClose, ?winGrants, ?winQuery, ?mboxConsume, ?chLoad, ?chStart, ?chAbort,
    ?chClear, ?chQuery, ?lineRestart⟩
  case winOpen => exact onWindow_posted fun _ _ u => ite_posted (hstays u) (hstays u)
  case winPark => exact onWindow_posted fun _ _ u => ite_posted (hstays u) (hstays u)
  case winUnpark => exact onWindow_posted fun _ _ u => hstays u
  case winClose => exact onWindow_posted fun _ _ u => ite_posted (hstays u) (hstays u)
  case winGrants => exact onWindow_posted fun _ _ u => hstays u
  case winQuery => exact onWindow_posted fun _ _ u => hstays u
  case mboxConsume => exact onWindow_posted fun _ _ u => ite_posted (hstays u) (hstays u)
  case chLoad => exact onChannel_posted fun _ _ u => ite_posted (hstays u) (hstays u)
  case chStart => exact onChannel_posted fun _ _ u => hstays u
  case chAbort =>
    exact onChannel_posted fun _ _ u => (Posted.of_eq (released_notices u _ _ _)).trans (post_posted _ nofun)
  case chClear => exact onChannel_posted fun _ _ u => hstays u
  case chQuery => exact onChannel_posted fun _ _ u => hstays u
  case lineRestart => exact fun u => ite_posted (hstays u) (hstays u)

theorem takeUnknown_notices (code : Word) (s : State) : (takeUnknown code s).notices = s.notices := by
  unfold takeUnknown
  split <;> rfl

theorem portArgument_notices (position : Nat) (value : Word) (enables : BitVec 4) (s : State) :
    (portArgument position value enables s).notices = s.notices := by
  unfold portArgument
  split
  · rfl
  · split <;> rfl

theorem portPop_noticeMove (s : State) : NoticeMove s.notices (portPop s).notices := by
  unfold portPop
  split
  · exact .refl _
  · exact .popped

theorem portEnable_noticeMove (value : Word) (enables : BitVec 4) (s : State) :
    NoticeMove s.notices (portEnable value enables s).notices := by
  unfold portEnable
  split
  · exact .refl _
  · split
    · exact .enabled _
    · exact .refl _

/-! ### The resets (R165, R183, R185) -/

theorem beginStart_notices (s : State) (straps : Station) : (s.beginStart straps).notices = s.notices := by
  rw [beginStart_eq]

theorem execStationReset_noticeMove {s t : State} {straps : Station} (h : execStationReset straps s = .next t) :
    NoticeMove s.notices t.notices := by
  unfold execStationReset at h
  split at h <;> cases h
  · exact .refl _
  · rw [beginStart_notices]
    exact .cleared

theorem execResetAsserted_noticeMove {s t : State} {straps : Station} (h : execResetAsserted straps s = .next t) :
    NoticeMove s.notices t.notices := by
  cases h
  exact .cleared

theorem execResetReleased_noticeMove {s t : State} {straps : Station} (h : execResetReleased straps s = .next t) :
    NoticeMove s.notices t.notices := by
  unfold execResetReleased at h
  split at h <;> cases h
  · exact .of_eq (beginStart_notices s straps)
  · exact .refl _

/-! ### The writes of the port by their rows -/

theorem cmdWrite_noticeMove {s t : State} {code : Word} (h : cmdWrite code s = .next t) :
    NoticeMove s.notices t.notices := by
  rcases cmdWrite_cases code s with ⟨p, hp, he⟩ | he | he <;> rw [he] at h
  · cases h; exact .posted (ownedCommand_posted p hp s)
  · exact execStationReset_noticeMove h
  · cases h; exact .of_eq (takeUnknown_notices code s)

theorem execPortWordWrite_noticeMove {s t : State} {address : BitVec 24} {value : Word} {enables : BitVec 4}
    (h : execPortWordWrite address value enables s = .next t) : NoticeMove s.notices t.notices := by
  unfold execPortWordWrite at h
  split_ifs at h
  · exact cmdWrite_noticeMove h
  · cases h; exact portPop_noticeMove s
  · cases h; exact portEnable_noticeMove _ _ s
  · cases h; exact .of_eq (portArgument_notices _ _ _ s)

/-! ### The grant and the bus cycles (R153 to R157) -/

theorem execLbgntAsserted_notices {s t : State} (h : execLbgntAsserted s = .next t) : t.notices = s.notices := by
  unfold execLbgntAsserted at h
  split at h <;> cases h <;> rfl

theorem execLbgntDeasserted_notices {s t : State} (h : execLbgntDeasserted s = .next t) :
    t.notices = s.notices := by
  unfold execLbgntDeasserted at h
  split at h <;> cases h <;> rfl

theorem execLberr_posted {s t : State} {inCycle : Bool} (h : execLberr s inCycle = .next t) :
    Posted s.notices t.notices := by
  unfold execLberr at h
  split at h
  · cases h; exact .refl _
  · split at h <;> cases h
    · exact endJob_posted s _ true
    · exact .refl _

theorem execGrantWaitExpiry_posted {s t : State} (h : execGrantWaitExpiry s = .next t) :
    Posted s.notices t.notices := by
  unfold execGrantWaitExpiry at h
  split at h
  · cases h; exact .refl _
  · split at h <;> cases h
    · exact endJob_posted s _ true
    · exact .refl _

theorem execBusCycleComplete_posted {s t : State} {stores : List Host.Cell}
    (h : execBusCycleComplete stores s = .next t) : Posted s.notices t.notices := by
  unfold execBusCycleComplete at h
  split at h
  · cases h; exact .refl _
  · rename_i j _
    split at h
    · split at h <;> cases h
      exact completeCycle_posted { s with mem := Memory.writeCells s.mem stores } j
    · cases h; exact .refl _

/-! ### The line (R124 to R143) -/

theorem execStartOpportunity_notices {s t : State} (h : execStartOpportunity s = .next t) :
    t.notices = s.notices := by
  unfold execStartOpportunity at h
  split at h
  · split at h <;> cases h <;> rfl
  · cases h; rfl

theorem execRoundLost_notices {s t : State} (h : execRoundLost s = .next t) : t.notices = s.notices := by
  unfold execRoundLost at h
  split at h
  · split at h <;> cases h
    · rfl
    · exact entryRoundLost_notices (s.setLine _) _
  · cases h; rfl

theorem execRoundWon_notices {s t : State} (h : execRoundWon s = .next t) : t.notices = s.notices := by
  unfold execRoundWon at h
  split at h
  · split at h <;> cases h
    · rfl
    · exact sendEntry_notices (s.setLine _) _
  · cases h; rfl

theorem giveResult_posted (s : State) (o : HandOwner) (taken : Bool) :
    Posted s.notices (s.giveResult o taken).notices := by
  cases o with
  | response k => exact .of_eq (responseSent_notices s k taken)
  | request i => exact entrySent_posted s i taken

theorem giveClash_posted (s : State) (o : HandOwner) : Posted s.notices (s.giveClash o).notices := by
  cases o with
  | response k => exact .refl _
  | request i => exact entryClashed_posted s i

theorem execSentFrameEnd_posted {s t : State} {slot : LineCond} (h : execSentFrameEnd slot s = .next t) :
    Posted s.notices t.notices := by
  unfold execSentFrameEnd at h
  split at h <;> cases h
  · exact giveResult_posted (s.setLine _) _ _
  · exact .refl _

theorem execClash_posted {s t : State} (h : execClash s = .next t) : Posted s.notices t.notices := by
  have hgive := giveClash_posted (s.setLine s.line.afterClash)
  unfold execClash at h
  split at h
  · split at h <;> cases h
    · exact (hgive _).trans (.one _ nofun)
    · exact hgive _
  · cases h; exact .refl _

theorem takeFrame_posted (s : State) (f : Frame) : Posted s.notices (s.takeFrame f).1.notices := by
  unfold State.takeFrame
  split
  · split
    · exact takeRequest_posted s _
    · exact takeAnswer_posted s _
    · exact .refl _
  · exact .refl _

theorem execFrameCrcReceived_posted {s t : State} {conds : List LineCond}
    (h : execFrameCrcReceived conds s = .next t) : Posted s.notices t.notices := by
  unfold execFrameCrcReceived at h
  split at h
  · split at h <;> cases h
    · exact .refl _
    · exact takeFrame_posted s _
  · cases h; exact .refl _

theorem endFrame_posted (s : State) : Posted s.notices s.endFrame.notices := by
  unfold State.endFrame
  split
  case h_2 =>
    split
    · exact .one _ nofun
    · split <;> exact .refl _
  case h_3 => split <;> exact .refl _
  all_goals exact .refl _

theorem execFrameEnd_posted {s t : State} {conds : List LineCond} (h : execFrameEnd s conds = .next t) :
    Posted s.notices t.notices := by
  unfold execFrameEnd at h
  split at h <;> cases h
  · exact endFrame_posted s
  · exact .refl _

theorem execJoiningTimerExpiry_posted {s t : State} (h : execJoiningTimerExpiry s = .next t) :
    Posted s.notices t.notices := by
  unfold execJoiningTimerExpiry at h
  split at h <;> cases h
  · exact .one _ nofun
  · exact .refl _

/-! ### Timers, formation and the PACE inputs (R76, R81, R84, R107, R114) -/

theorem execResponseTimerExpiry_posted {s t : State} {i : Fin 16} (h : execResponseTimerExpiry i s = .next t) :
    Posted s.notices t.notices := by
  unfold execResponseTimerExpiry at h
  split at h <;> cases h
  · exact retryEntry_posted s i
  · exact .refl _

theorem execHoldTimerExpiry_notices {s t : State} {i : Fin 16} (h : execHoldTimerExpiry i s = .next t) :
    t.notices = s.notices := by
  unfold execHoldTimerExpiry at h
  split at h <;> cases h <;> rfl

theorem execFormation_notices {s t : State} (h : execFormation s = .next t) : t.notices = s.notices := by
  unfold execFormation at h
  split at h
  · split at h <;> cases h
    · exact formData_notices s _ _
    · rfl
  all_goals cases h; rfl

theorem execSignalFormation_notices {s t : State} (h : execSignalFormation s = .next t) : t.notices = s.notices := by
  unfold execSignalFormation at h
  split at h
  · split at h <;> cases h
    · exact formSignal_notices s _ _
    · rfl
  all_goals cases h; rfl

theorem execPaceAsserted_notices {s t : State} {n : Fin 4} (h : execPaceAsserted n s = .next t) :
    t.notices = s.notices := by
  unfold execPaceAsserted at h
  split at h <;> cases h <;> rfl

/-! ### Every command and every step -/

theorem exec_noticeMove {c : Instr} {s t : State} (h : exec c s = .next t) : NoticeMove s.notices t.notices := by
  have howned : ∀ p ∈ ownedCommands, .next (takeCommand p.2.1 p.2.2 s) = exec c s → NoticeMove s.notices t.notices := by
    intro p hp he
    rw [h] at he
    cases he
    exact .posted (ownedCommand_posted p hp s)
  simp only [ownedCommands, List.forall_mem_cons, List.not_mem_nil, false_implies, implies_true, and_true] at howned
  obtain ⟨hopen, hpark, hunpark, hclose, hgrants, hquery, hconsume, hload, hstart, habort, hclear, hcopy, hrestart⟩ :=
    howned
  cases c with
  | winOpen => exact hopen rfl
  | winPark => exact hpark rfl
  | winUnpark => exact hunpark rfl
  | winClose => exact hclose rfl
  | winGrants => exact hgrants rfl
  | winQuery => exact hquery rfl
  | mboxConsume => exact hconsume rfl
  | chLoad => exact hload rfl
  | chStart => exact hstart rfl
  | chAbort => exact habort rfl
  | chClear => exact hclear rfl
  | chQuery => exact hcopy rfl
  | lineRestart => exact hrestart rfl
  | stationReset straps => exact execStationReset_noticeMove h
  | unknownCommand value enables => exact cmdWrite_noticeMove h
  | noticePop value => cases h; exact portPop_noticeMove s
  | intEnable value enables => cases h; exact portEnable_noticeMove _ _ s
  | portWordWrite address value enables => exact execPortWordWrite_noticeMove h
  | resetAsserted straps => exact execResetAsserted_noticeMove h
  | resetReleased straps => exact execResetReleased_noticeMove h
  | paceAsserted n => exact .of_eq (execPaceAsserted_notices h)
  | paceDeasserted n => cases h; exact .refl _
  | lbgntAsserted => exact .of_eq (execLbgntAsserted_notices h)
  | lbgntDeasserted => exact .of_eq (execLbgntDeasserted_notices h)
  | lberr inCycle => exact .posted (execLberr_posted h)
  | busCycleComplete stores => exact .posted (execBusCycleComplete_posted h)
  | grantWaitExpiry => exact .posted (execGrantWaitExpiry_posted h)
  | startOpportunity => exact .of_eq (execStartOpportunity_notices h)
  | startMark seen => cases h; exact .refl _
  | roundLost => exact .of_eq (execRoundLost_notices h)
  | roundWon => exact .of_eq (execRoundWon_notices h)
  | frameCrcReceived conds => exact .posted (execFrameCrcReceived_posted h)
  | frameEnd conds => exact .posted (execFrameEnd_posted h)
  | sentFrameEnd slot => exact .posted (execSentFrameEnd_posted h)
  | clash => exact .posted (execClash_posted h)
  | joiningTimerExpiry => exact .posted (execJoiningTimerExpiry_posted h)
  | responseTimerExpiry entry => exact .posted (execResponseTimerExpiry_posted h)
  | holdTimerExpiry entry => exact .of_eq (execHoldTimerExpiry_notices h)
  | formation => exact .of_eq (execFormation_notices h)
  | signalFormation => exact .of_eq (execSignalFormation_notices h)

theorem step_noticeMove {s t : State} (h : step s = .next t) : NoticeMove s.notices t.notices := by
  unfold step at h
  split at h
  · cases h; exact .refl _
  · rename_i c rest _
    exact exec_noticeMove (s := { s with pending := rest }) h

/-- Settles O52: a step posts notices other than the marker, pops, sets the enable or clears the queue, and each of the
four keeps the queue well formed. -/
theorem noticesStayWellFormed : Obligations.NoticesStayWellFormed := by
  unfold Obligations.NoticesStayWellFormed
  exact fun s t hs h => (step_noticeMove h).noticesOk hs

end Sys2Proof.Machine
end

section
/-! Writes to the Local Port: which command a write to CMD is, what a part in reset does with every write, and which bytes
a write to an argument word replaces (R177 to R179, R183, R196). -/

namespace Sys2Proof.Machine

/-! ### A part in reset (R178, R183) -/

/-- Settles O51: a part in reset takes no command but RESET_ASSERTED, which resets it again, and RESET_RELEASED, which ends
the reset (`exec_held`, `fullReset_atFullReset`). -/
theorem heldStaysAtReset : Obligations.HeldStaysAtReset := by
  unfold Obligations.HeldStaysAtReset
  intro s t hs h
  obtain ⟨hheld, -, -⟩ := step_invariants hs h
  exact hheld

/-! ### Writes to CMD (R179) -/

/-- Each of the thirteen commands that an owner takes goes through the port with its code. -/
theorem exec_ownedCommand : ∀ p ∈ ownedCommands, ∀ s, exec p.1 s = .next (takeCommand p.2.1 p.2.2 s) := by
  simp only [ownedCommands, List.forall_mem_cons, List.not_mem_nil, false_implies, implies_true, and_true]
  and_intros <;> exact fun _ => rfl

/-- A write of a named code is that command (R179; log 10). -/
theorem cmdWrite_ownedCommand : ∀ p ∈ ownedCommands, ∀ s, cmdWrite p.2.1 s = exec p.1 s := by
  simp only [ownedCommands, List.forall_mem_cons, List.not_mem_nil, false_implies, implies_true, and_true]
  and_intros <;> exact fun _ => rfl

theorem cmdWrite_unknown {code : Word} (h : code ∉ commandCodes) (s : State) :
    cmdWrite code s = .next (takeUnknown code s) := by
  simp only [commandCodes, List.mem_cons, List.not_mem_nil, not_or, not_false_eq_true, and_true] at h
  simp only [cmdWrite, h, if_false]

theorem takeUnknown_released {s : State} (h : s.pins.resetHeld = false) (code : Word) :
    takeUnknown code s = s.answered code .unknownCommand := by
  rw [takeUnknown, if_neg (Bool.eq_false_iff.mp h), State.answered]

theorem exec_stationReset_released {s : State} (h : s.pins.resetHeld = false) (straps : Station) :
    exec (.stationReset straps) s = .next (s.fullReset.beginStart straps) :=
  if_neg (Bool.eq_false_iff.mp h)

/-- Settles O2: the port's part of a command decides by the code, RESET# and the station state. -/
theorem cmdWriteTakesItsCode : Obligations.CmdWriteTakesItsCode := by
  unfold Obligations.CmdWriteTakesItsCode
  refine fun s hr => ⟨fun value enables hcode => ?unknown, exec_stationReset_released hr, fun p hp hstation => ?notReady,
    fun p hp hstation => ?owner⟩
  case unknown => exact (cmdWrite_unknown hcode s).trans (congrArg _ (takeUnknown_released hr _))
  case notReady => rw [exec_ownedCommand p hp, takeCommand_notReady hr hstation, State.answered]
  case owner => rw [exec_ownedCommand p hp, takeCommand_ready ⟨hr, hstation⟩]

/-- Settles O3: the port's part of each write looks at RESET# first. -/
theorem heldPortIgnoresWrites : Obligations.HeldPortIgnoresWrites := by
  unfold Obligations.HeldPortIgnoresWrites
  refine fun s h => ⟨fun p hp => ?owned, fun straps => if_pos h, fun value enables => cmdWrite_held h _,
    fun value => congrArg _ (if_pos h), fun value enables => congrArg _ (if_pos h),
    fun address value enables => execPortWordWrite_held h address value enables⟩
  case owned => rw [exec_ownedCommand p hp, takeCommand_held h]

/-! ### The bytes of a written word (R177) -/

theorem portPosition_eq (address : BitVec 24) : portPosition address = address.toNat / 4 % 64 := by
  simp [portPosition, Nat.shiftRight_eq_div_pow]

/-- The mask of each byte holds that byte's bits. -/
theorem byteMask_bits (j : Fin 32) :
    (0x000000FF#32).getLsbD j = decide (j.val / 8 = 0) ∧ (0x0000FF00#32).getLsbD j = decide (j.val / 8 = 1) ∧
    (0x00FF0000#32).getLsbD j = decide (j.val / 8 = 2) ∧ (0xFF000000#32).getLsbD j = decide (j.val / 8 = 3) := by
  revert j
  decide

/-- A word under one byte's mask, where that byte is enabled. -/
theorem enabledByte_getLsbD {mask : Word} {q j : Nat} (hmask : mask.getLsbD j = decide (j / 8 = q)) (value : Word)
    (enables : BitVec 4) : (if enables.getLsbD q then value &&& mask else 0).getLsbD j =
      (decide (j / 8 = q) && (enables.getLsbD (j / 8) && value.getLsbD j)) := by
  by_cases hq : j / 8 = q
  · subst hq
    cases enables.getLsbD (j / 8) <;> simp [hmask]
  · simp [apply_ite (BitVec.getLsbD · j), hmask, hq]

/-- A bit of a word as written stands where its byte is enabled (R177). -/
theorem enabledWord_getLsbD (value : Word) (enables : BitVec 4) {j : Nat} (hj : j < 32) :
    (enabledWord value enables).getLsbD j = (enables.getLsbD (j / 8) && value.getLsbD j) := by
  obtain ⟨h0, h1, h2, h3⟩ := byteMask_bits ⟨j, hj⟩
  have hbyte : j / 8 = 0 ∨ j / 8 = 1 ∨ j / 8 = 2 ∨ j / 8 = 3 := by omega
  simp only [enabledWord, BitVec.getLsbD_or, enabledByte_getLsbD h0, enabledByte_getLsbD h1, enabledByte_getLsbD h2,
    enabledByte_getLsbD h3]
  rcases hbyte with h | h | h | h <;> simp [h]

/-- A bit of a word whose enabled bytes are replaced (R177). -/
theorem mergeBytes_getLsbD (old value : Word) (enables : BitVec 4) {j : Nat} (hj : j < 32) :
    (mergeBytes old value enables).getLsbD j = if enables.getLsbD (j / 8) then value.getLsbD j else old.getLsbD j := by
  have hq : j / 8 < 4 := by omega
  rw [mergeBytes, BitVec.getLsbD_or, enabledWord_getLsbD value enables hj, enabledWord_getLsbD old _ hj,
    BitVec.getLsbD_not]
  cases enables.getLsbD (j / 8) <;> simp [hq]

/-- A byte of a word is known by its bits. -/
theorem byte_ext {w : Word} {b : Byte} {k : Fin 4} (h : ∀ i < 8, w.getLsbD (8 * k.val + i) = b.getLsbD i) :
    w.extractLsb' (8 * k.val) 8 = b := by
  refine BitVec.eq_of_getLsbD_eq fun i hi => ?_
  rw [BitVec.getLsbD_extractLsb', decide_eq_true hi, Bool.true_and, h i hi]

theorem enabledWord_byte (value : Word) (enables : BitVec 4) (k : Fin 4) :
    (enabledWord value enables).extractLsb' (8 * k.val) 8 =
      if enables.getLsbD k.val then value.extractLsb' (8 * k.val) 8 else 0 := by
  refine byte_ext fun i hi => ?_
  have hk : (8 * k.val + i) / 8 = k.val := by omega
  rw [enabledWord_getLsbD _ _ (by omega), hk]
  cases enables.getLsbD k.val <;> simp [hi]

theorem mergeBytes_byte (old value : Word) (enables : BitVec 4) (k : Fin 4) :
    (mergeBytes old value enables).extractLsb' (8 * k.val) 8 =
      if enables.getLsbD k.val then value.extractLsb' (8 * k.val) 8 else old.extractLsb' (8 * k.val) 8 := by
  refine byte_ext fun i hi => ?_
  have hk : (8 * k.val + i) / 8 = k.val := by omega
  rw [mergeBytes_getLsbD _ _ _ (by omega), hk]
  cases enables.getLsbD k.val <;> simp [hi]

/-! ### Writes by position (R177, R196) -/

section
variable {s : State} {address : BitVec 24} {value : Word} {enables : BitVec 4}

theorem exec_portWordWrite_cmd (h : portPosition address = 0) :
    exec (.portWordWrite address value enables) s = exec (.unknownCommand value enables) s :=
  if_pos h

theorem exec_portWordWrite_noticePop (h : portPosition address = 14) :
    exec (.portWordWrite address value enables) s = exec (.noticePop value) s :=
  (if_neg (by omega)).trans (if_pos h)

theorem exec_portWordWrite_intEnable (h : portPosition address = 15) :
    exec (.portWordWrite address value enables) s = exec (.intEnable value enables) s :=
  (if_neg (by omega)).trans ((if_neg (by omega)).trans (if_pos h))

/-- A write at any other position is the argument words' or no word's. -/
theorem exec_portWordWrite_other (h0 : portPosition address ≠ 0) (h14 : portPosition address ≠ 14)
    (h15 : portPosition address ≠ 15) :
    exec (.portWordWrite address value enables) s = .next (portArgument (portPosition address) value enables s) :=
  (if_neg h0).trans ((if_neg h14).trans (if_neg h15))

theorem portArgument_released (h : s.pins.resetHeld = false) (p : Fin 6) : portArgument (p.val + 1) value enables s =
    { s with args := s.args.set p (mergeBytes s.args[p] value enables) } := by
  have hp : 1 ≤ p.val + 1 ∧ p.val + 1 ≤ 6 := by omega
  simp only [portArgument, h, Bool.false_eq_true, if_false, dif_pos hp]
  rfl

theorem portArgument_noWord {position : Nat} (h : 7 ≤ position) : portArgument position value enables s = s := by
  have hp : ¬(1 ≤ position ∧ position ≤ 6) := by omega
  rw [portArgument, dif_neg hp, ite_self]

end

/-- Settles O4: a write is its position's, and a word as written or replaced is known bit by bit. -/
theorem portWordWrites : Obligations.PortWordWrites := by
  unfold Obligations.PortWordWrites
  refine fun s address value enables => ⟨portPosition_eq address, enabledWord_byte value enables, fun hr p hp => ?argument,
    fun hlow hpos => ?noWord, exec_portWordWrite_cmd, exec_portWordWrite_noticePop, exec_portWordWrite_intEnable,
    fun p hp hcode => ?named, fun hcode => ?stationReset⟩
  case argument =>
    have ht := exec_portWordWrite_other (s := s) (value := value) (enables := enables) (address := address)
      (by omega) (by omega) (by omega)
    rw [hp, portArgument_released hr] at ht
    refine ⟨_, ht, rfl, fun q hq => ?_, fun k => ?_⟩
    · exact (getElem_set_fin s.args p q _).trans (if_neg hq.symm)
    · refine Eq.trans ?_ (mergeBytes_byte s.args[p] value enables k)
      exact congrArg (BitVec.extractLsb' (8 * k.val) 8) ((getElem_set_fin s.args p p _).trans (if_pos rfl))
  case noWord =>
    rw [exec_portWordWrite_other (by omega) (by omega) (by omega), portArgument_noWord hlow]
  case named =>
    show cmdWrite (enabledWord value enables) s = _
    rw [hcode, cmdWrite_ownedCommand p hp]
  case stationReset =>
    show cmdWrite (enabledWord value enables) s = _
    rw [hcode]
    rfl

end Sys2Proof.Machine
end

section
/-! Reads of the Local Port: each word that is not read as it was stored, with its codes as places in their rules' lists
(R169, R182, R196, R197). -/

namespace Sys2Proof.Machine

/-! ### RESULT and STATUS (R180, R182, R196) -/

theorem result_code (r : Result) : r.code.toNat =
    [Result.none, .done, .pending, .badArg, .wrongState, .notReady, .unknownCommand].idxOf r := by
  cases r <;> rfl

theorem stationState_code (st : StationState) : st.code = [StationState.starting, .running, .startFailed].idxOf st := by
  cases st <;> rfl

theorem lineState_code (st : LineState) :
    st.code = [LineState.offline, .joining, .idle, .contending, .sending, .receiving, .silent].idxOf st := by
  cases st <;> rfl

theorem reasonCode_eq (r : Option StartReason) :
    reasonCode r = [none, some StartReason.memory, some .format, some .checksum, some .range].idxOf r := by
  rcases r with _ | r
  · rfl
  · cases r <;> rfl

theorem stationState_code_lt (st : StationState) : st.code < 4 := by cases st <;> decide

theorem lineState_code_lt (st : LineState) : st.code < 8 := by cases st <;> decide

theorem reasonCode_lt (r : Option StartReason) : reasonCode r < 8 := by
  rcases r with _ | r
  · decide
  · cases r <;> decide

theorem packed_five (a b c d e : Nat) : (packed [a, b, c, d, e]).toNat = (a + b + c + d + e) % 4294967296 := by
  simp [packed_toNat, Nat.add_assoc]

/-- STATUS is the sum of its five fields at their places. -/
theorem statusWord_toNat (s : State) : (statusWord s).toNat =
    s.loader.station.code + 16 * s.line.state.code + 256 * (shownNumber s).toNat + 65536 * reasonCode s.loader.reason +
      16777216 * s.notices.hasMarker.toNat := by
  have hstation := stationState_code_lt s.loader.station
  have hline := lineState_code_lt s.line.state
  have hnumber := (shownNumber s).isLt
  have hreason := reasonCode_lt s.loader.reason
  have hmarker := s.notices.hasMarker.toNat_le
  rw [statusWord]
  simp (disch := omega) only [packed_five, placed_of_lt, placedFlag_eq]
  omega

theorem noticeCount_toNat {s : State} (h : s.notices.records.length ≤ 32) :
    (noticeCount s).toNat = s.notices.records.length :=
  (BitVec.toNat_ofNat _ _).trans (Nat.mod_eq_of_lt (by omega))

/-! ### The head's words (R169, R197) -/

/-- A kind code and its field words in the order of NOTICE_W0 to NOTICE_W3. -/
def wordList (w : Word × Word × Word × Word) : List Word := [w.1, w.2.1, w.2.2.1, w.2.2.2]

/-- The four positions after NOTICE_COUNT's show the head's words. -/
theorem portRead_head {address : BitVec 24} (s : State) (p : Fin 4) (hp : portPosition address = 10 + p.val) :
    portRead address s = (wordList (headWords s)).getD p.val 0 := by
  match p with
  | 0 | 1 | 2 | 3 => simp only [portRead, hp]; rfl

/-- With no record they show EMPTY and zeros. -/
theorem portRead_head_empty {s : State} {address : BitVec 24} (hs : s.notices.records = []) (p : Fin 4)
    (hp : portPosition address = 10 + p.val) : portRead address s = 0 := by
  have hhead : headWords s = (0, 0, 0, 0) := by simp only [headWords, hs]
  rw [portRead_head s p hp, hhead]
  match p with
  | 0 | 1 | 2 | 3 => rfl

/-- A head whose words are these numbers shows them. -/
theorem portRead_head_numbers {s : State} {address : BitVec 24} {n : Notice} {rest : List Notice} {w : List Nat}
    (hs : s.notices.records = n :: rest) (hw : wordList n.words = w.map (BitVec.ofNat 32)) (p : Fin 4)
    (hp : portPosition address = 10 + p.val) : portRead address s = BitVec.ofNat 32 (w.getD p.val 0) := by
  have hhead : headWords s = n.words := by simp only [headWords, hs]
  rw [portRead_head s p hp, hhead, hw]
  exact List.getD_map w 0 (BitVec.ofNat 32)

theorem startReason_code (r : StartReason) :
    r.code = 1 + [StartReason.memory, .format, .checksum, .range].idxOf r := by
  cases r <;> rfl

theorem joinedHow_code (how : JoinedHow) : how.code = [JoinedHow.frame, .quiet].idxOf how := by cases how <;> rfl

/-- The channel and the at-signal flag of CHANNEL_FAULT share a word. -/
theorem channelFault_word (c : Fin 8) (atSignal : Bool) :
    packed [placed 0 3 c.val, placedFlag 8 atSignal] = BitVec.ofNat 32 (c.val + 256 * atSignal.toNat) := by
  have hc : c.val < 2 ^ 3 := c.isLt
  rw [packed, placed_of_lt hc, placedFlag_eq]
  simp [Nat.mul_comm]

/-! ### Words by position (R177, R196) -/

theorem portRead_argument {address : BitVec 24} (s : State) (p : Fin 6) (hp : portPosition address = p.val + 1) :
    portRead address s = s.args[p] := by
  match p with
  | 0 | 1 | 2 | 3 | 4 | 5 => simp only [portRead, hp]; rfl

theorem portRead_noWord {address : BitVec 24} (h : 16 ≤ portPosition address) (s : State) : portRead address s = 0 := by
  unfold portRead
  split
  case h_16 => rfl
  all_goals omega

/-- Settles O7: each position selects its word, each code is its value's place in its rule's list, and the head's words
are spelled kind by kind. -/
theorem portReads : Obligations.PortReads := by
  unfold Obligations.PortReads
  refine fun s address => ⟨fun hp => ?result, fun hp => ?status, fun hp hroom => ?count, fun hnil hlow hhigh => ?empty,
    fun n rest w hs hw => ?head, fun hp => ?enable, fun hp => portRead_noWord hp s, fun hp => ?cmd, portRead_argument s⟩
  case result => simp only [portRead, hp, result_code]
  case status =>
    simp only [portRead, hp, statusWord_toNat, stationState_code, lineState_code, reasonCode_eq]
    rfl
  case count => simp only [portRead, hp, noticeCount_toNat hroom]
  case empty =>
    obtain ⟨p, hp⟩ := Nat.exists_eq_add_of_le hlow
    exact portRead_head_empty hnil ⟨p, by omega⟩ hp
  case head =>
    refine portRead_head_numbers hs ?_
    subst hw
    cases n with
    | channelEnd c reloaded => rfl
    | channelFault c code offset atSignal => simp only [Notice.words, channelFault_word, faultCode_code]; rfl
    | windowTouched i sender offset => simp only [List.map, BitVec.ofNat_toNat]; rfl
    | windowQuiet i => rfl
    | windowClosed i => rfl
    | mailboxArrival i slot => rfl
    | remoteSignal sender value => simp only [List.map, BitVec.ofNat_toNat, BitVec.setWidth_eq]; rfl
    | localFault i localAddress slot => rfl
    | lineJoined how lastWinner => simp only [List.map, BitVec.ofNat_toNat, ← joinedHow_code]; rfl
    | lineSilent clashes => rfl
    | startFailed reason => simp only [Notice.words, startReason_code]; rfl
    | overflow => rfl
  case enable => simp only [portRead, hp]
  case cmd => simp only [portRead, hp]

end Sys2Proof.Machine
end

section
/-! The start block's decision: its words as the numbers of their bytes, the checks of R187 on those numbers, and the
events that end the start read (R153, R156, R157, R160, R186 to R189). -/

namespace Sys2Proof.Machine

/-! ### The words of the start block (R160, R186, R195) -/

/-- A byte joined below a word. -/
theorem append_byte_toNat {n : Nat} (high : BitVec n) (low : Byte) :
    (high ++ low).toNat = 256 * high.toNat + low.toNat := by
  rw [BitVec.toNat_append, ← Nat.shiftLeft_add_eq_or_of_lt low.isLt, Nat.shiftLeft_eq, Nat.mul_comm]

theorem holding_getD (holding : Vector Byte 44) {i : Nat} (h : i < 44) : holding.toList.getD i 0 = holding[i] := by
  simp [List.getD_eq_getElem?_getD, h]

/-- A word is its four bytes, the first the least significant. -/
theorem startWord_toNat (holding : Vector Byte 44) (k : Fin 11) : (startWord holding k.val).toNat =
    holding[4 * k.val].toNat + 256 * holding[4 * k.val + 1].toNat + 65536 * holding[4 * k.val + 2].toNat +
      16777216 * holding[4 * k.val + 3].toNat := by
  simp (disch := omega) only [startWord, append_byte_toNat, holding_getD, Nat.add_zero]
  omega

/-- The words of a start block are these numbers. -/
def StartNumbers (holding : Vector Byte 44) (w : Nat → Nat) : Prop := ∀ k < 11, (startWord holding k).toNat = w k

theorem startNumbers_of_bytes {holding : Vector Byte 44} {w : Nat → Nat}
    (h : ∀ k : Fin 11, w k.val = holding[4 * k.val].toNat + 256 * holding[4 * k.val + 1].toNat +
      65536 * holding[4 * k.val + 2].toNat + 16777216 * holding[4 * k.val + 3].toNat) : StartNumbers holding w :=
  fun k hk => (startWord_toNat holding ⟨k, hk⟩).trans (h ⟨k, hk⟩).symm

theorem wordSum_toNat (words : List Word) : words.sum.toNat = (words.map BitVec.toNat).sum % 4294967296 := by
  induction words with
  | nil => rfl
  | cons v rest ih => rw [List.sum_cons, List.map_cons, List.sum_cons, BitVec.toNat_add, ih, Nat.add_mod_mod]

section
variable {holding : Vector Byte 44} {w : Nat → Nat}

/-- The checksum adds the numbers modulo 2^32 (R187). -/
theorem startWords_sum (h : StartNumbers holding w) : (startWords holding).sum.toNat =
    (w 0 + w 1 + w 2 + w 3 + w 4 + w 5 + w 6 + w 7 + w 8 + w 9 + w 10) % 4294967296 := by
  have hmap : (startWords holding).map BitVec.toNat = (List.range 11).map w := by
    rw [startWords, List.map_map]
    exact List.map_congr_left fun k hk => h k (List.mem_range.mp hk)
  rw [wordSum_toNat, hmap]
  simp [List.range_succ, Nat.add_assoc]

/-- A word is a number exactly where its value is. -/
theorem startWord_eq_iff (h : StartNumbers holding w) {k : Nat} (hk : k < 11) (v : Word) :
    startWord holding k = v ↔ w k = v.toNat := by
  rw [← h k hk, BitVec.toNat_inj]

theorem startRangesOk_iff (w : Nat → Nat) : startRangesOk w = true ↔
    w 1 ≤ 3 ∧ w 2 ≤ 1 ∧ w 3 ≤ 255 ∧ (1 ≤ w 4 ∧ w 4 ≤ 255) ∧ w 5 ≤ 15 ∧ (1 ≤ w 6 ∧ w 6 ≤ 255) ∧
      (1 ≤ w 7 ∧ w 7 ≤ 255) ∧ 1 ≤ w 8 ∧ w 8 ≤ 255 := by
  simp only [startRangesOk, Bool.and_eq_true, decide_eq_true_eq, and_assoc]

theorem startRangesOk_congr (h : StartNumbers holding w) :
    startRangesOk (fun k => (startWord holding k).toNat) = startRangesOk w := by
  simp (disch := decide) only [startRangesOk, h _]

/-- The cases of R187 on the numbers, in their order. -/
theorem startFailure_eq (h : StartNumbers holding w) : startFailure holding =
    if w 0 ≠ 1 then some .format
    else if (w 0 + w 1 + w 2 + w 3 + w 4 + w 5 + w 6 + w 7 + w 8 + w 9 + w 10) % 4294967296 ≠ 0 then some .checksum
    else if w 1 ≤ 3 ∧ w 2 ≤ 1 ∧ w 3 ≤ 255 ∧ (1 ≤ w 4 ∧ w 4 ≤ 255) ∧ w 5 ≤ 15 ∧ (1 ≤ w 6 ∧ w 6 ≤ 255) ∧
        (1 ≤ w 7 ∧ w 7 ≤ 255) ∧ 1 ≤ w 8 ∧ w 8 ≤ 255 then none
    else some .range := by
  have hformat : startWord holding 0 = 1 ↔ w 0 = 1 := startWord_eq_iff h (by decide) 1
  have hsum : (startWords holding).sum = 0 ↔ (startWords holding).sum.toNat = 0 := BitVec.toNat_inj.symm
  rw [startWords_sum h] at hsum
  simp only [startFailure, startRangesOk_congr h, ne_eq, hformat, hsum, ← startRangesOk_iff]
  cases startRangesOk w <;> rfl

/-- The configuration the numbers give (R186). -/
theorem startConfig_eq (h : StartNumbers holding w) : startConfig holding =
    { lineRate := w 1, policy := if w 2 = 0 then .rotating else .fixed, incarnation := BitVec.ofNat 8 (w 3)
      responseLimit := w 4, retryLimit := w 5, holdInterval := w 6, holdLimit := w 7, grantWait := w 8
      signalGrants := BitVec.ofNat 32 (w 9) } := by
  have hpolicy : startWord holding 2 = 0 ↔ w 2 = 0 := startWord_eq_iff h (by decide) 0
  have hgrants : startWord holding 9 = BitVec.ofNat 32 (w 9) := by
    rw [← h 9 (by decide), BitVec.ofNat_toNat, BitVec.setWidth_eq]
  have hincarnation : (startWord holding 3).setWidth 8 = BitVec.ofNat 8 (w 3) := by
    rw [← h 3 (by decide), BitVec.ofNat_toNat]
  simp (disch := decide) only [startConfig, hpolicy, hgrants, hincarnation, h _]

end

/-! ### The decision and the events that end the read (R153, R156, R157, R187) -/

theorem decideStart_fail {s : State} {r : StartReason} (h : startFailure s.loader.holding = some r) :
    s.decideStart false = s.failStart r := by
  simp only [State.decideStart, h, Bool.false_eq_true, if_false]

theorem decideStart_pass {s : State} (h : startFailure s.loader.holding = none) :
    s.decideStart false = s.succeedStart := by
  simp only [State.decideStart, h, Bool.false_eq_true, if_false]

/-- The end of the start read with no job waiting: the engine lets go and the loader decides. -/
theorem endJob_loader {s : State} (hr : s.engine.responder = []) (hq : s.engine.requester = []) (faulted : Bool) :
    s.endJob .loader faulted = s.releaseEngine.decideStart faulted := by
  have hengine := decideStart_engine s.releaseEngine faulted
  exact selectJob_empty ((congrArg Engine.responder hengine).trans hr) ((congrArg Engine.requester hengine).trans hq)

/-- Settles O48: the checks are R187's on the words' numbers, and each of the three events ends the read and hands its
outcome to the loader. -/
theorem startDecided : Obligations.StartDecided := by
  unfold Obligations.StartDecided
  refine ⟨fun s faulted w fail hbytes hfail => ?decision, fun s j u hj hown hr hq hu =>
    ⟨fun hphase => ?busError, fun hphase => ?grantWait, fun stores m hphase hkind hb hstores hcycle hlast hm => ?lastCycle⟩⟩
  case decision =>
    have hw := startNumbers_of_bytes hbytes
    have hcases := startFailure_eq hw
    rw [← startConfig_eq hw]
    subst hfail
    cases faulted with
    | true => rfl
    | false =>
      rw [if_neg Bool.false_ne_true]
      split_ifs at hcases ⊢ with hformat hsum hranges
      · exact decideStart_fail hcases
      · exact decideStart_fail hcases
      · exact decideStart_pass hcases
      · exact decideStart_fail hcases
  case busError => rw [jobFault_endJob hj (.inl ⟨rfl, hphase⟩), hown, endJob_loader hr hq, hu]; rfl
  case grantWait => rw [jobFault_endJob hj (.inr ⟨rfl, hphase⟩), hown, endJob_loader hr hq, hu]; rfl
  case lastCycle =>
    subst hu hm
    rw [busCycleComplete_last hj hphase hstores hcycle hlast, hown, moveCycle_holding hkind hb]
    rw [endJob_loader (by exact hr) (by exact hq)]
    rfl

end Sys2Proof.Machine
end

section
/-! The queue: a step takes the command at its front, and an empty queue idles (log 3). -/

namespace Sys2Proof.Machine

theorem step_of_pending_cons {s : State} {c : Instr} {rest : List Instr} (h : s.pending = c :: rest) :
    step s = exec c { s with pending := rest } := by
  simp only [step, h]

theorem step_of_pending_nil {s : State} (h : s.pending = []) : step s = .next s := by
  simp only [step, h]

/-- Settles O1: `step` splits on the queue alone, and its two cases are the statement's two halves. -/
theorem stepTakesFrontCommand : Obligations.StepTakesFrontCommand := by
  unfold Obligations.StepTakesFrontCommand
  exact ⟨fun _ _ _ hfront => step_of_pending_cons hfront, fun _ hempty => step_of_pending_nil hempty⟩

end Sys2Proof.Machine
end
